-- ==== Sys2Proof/Word.lean ====
section
/-! DEFINITION. The two word types of the model: every register, buffer element and ROM entry is 64 bits wide
(`10_state.md` R20, R23; `00_scope.md` R8), and a byte is one lane of a transaction (`20_memory.md` R66). -/

namespace Sys2Proof

/-- A 64-bit register, command word, buffer element or ROM entry. Bit 0 is the least significant (R7). -/
abbrev Word := BitVec 64

/-- One byte lane (R66). -/
abbrev Byte := BitVec 8

end Sys2Proof
end

