-- ==== Sys2Proof/Syntax.lean ====
section
/-! DEFINITION. The commands, one constructor per row of opcode_table.json (`30_encoding.md` R92). LEN is an unsigned
integer on which index arithmetic is exact (`00_scope.md` R8, `30_encoding.md` R91), so it is a Nat here; its range is
checked in WellFormed. -/

namespace Sys2Proof

/-- A command of the block (R92). The argument is LEN; NOP has none, since its LEN must be 0. -/
inductive Instr where
  /-- NOP (`40_control.md` R112). -/
  | nop
  /-- CONFIG n: set the transform size (`40_control.md` R113). -/
  | config (n : Nat)
  /-- BITREV n: the bit-reversal permutation (`41_transform.md` R134). -/
  | bitrev (n : Nat)
  /-- BFLY n: the butterfly network (`41_transform.md` R137). -/
  | bfly (n : Nat)
  /-- FFT n: the forward transform (`41_transform.md` R138). -/
  | fft (n : Nat)
  /-- MAG n: the magnitude spectrum (`42_spectrum.md` R161). -/
  | mag (n : Nat)
  /-- ANALYZE n: configure, zero IMAG, transform, magnitudes (`42_spectrum.md` R162). -/
  | analyze (n : Nat)
  deriving DecidableEq, Repr

/-- LEN of a command; NOP's is 0 (R91). -/
def Instr.len : Instr → Nat
  | .nop => 0
  | .config n => n
  | .bitrev n => n
  | .bfly n => n
  | .fft n => n
  | .mag n => n
  | .analyze n => n

end Sys2Proof
end

