-- ==== Sys2Proof/WellFormed.lean ====
section
/-! DEFINITION. Which instruction terms a command word can carry: LEN is a 32-bit field, "an unsigned integer in
[0, 2^32)" (`30_encoding.md` R91). The checks of LEN against validSize and N_cfg are the issue step's, not the
encoding's (R94). -/

namespace Sys2Proof

/-- LEN fits its field (R91). -/
def Instr.wellFormed (i : Instr) : Bool := decide (i.len < 2 ^ 32)

end Sys2Proof
end

