-- ==== Sys2Proof/Decode.lean ====
section
/-! DEFINITION. The command format CMD64: decoding (`30_encoding.md` R90 to R95), total on every 64-bit word and on
every list of eight bytes, and the encoder written from the same table (R92, R96). -/

namespace Sys2Proof

/-- OP, bits [7:0] of a command word (R90). -/
def opField (w : Word) : BitVec 8 := w.extractLsb' 0 8

/-- RSV, bits [31:8] of a command word (R90). -/
def rsvField (w : Word) : BitVec 24 := w.extractLsb' 8 24

/-- LEN, bits [63:32] of a command word, neither sign-extended nor scaled (R90, R91). -/
def lenField (w : Word) : BitVec 32 := w.extractLsb' 32 32

/-- Why a word is illegal, in the numbering of R93. -/
inductive Illegal where
  /-- 1: OP is in 0x07 to 0xFF. -/
  | reservedOpcode
  /-- 2: RSV is not 0. -/
  | reservedBits
  /-- 3: OP is 0x00 and LEN is not 0. -/
  | nopWithLength
  deriving DecidableEq, Repr

/-- OP of a command (R92). -/
def Instr.opcode : Instr → BitVec 8
  | .nop => 0x00#8
  | .config _ => 0x01#8
  | .bitrev _ => 0x02#8
  | .bfly _ => 0x03#8
  | .fft _ => 0x04#8
  | .mag _ => 0x05#8
  | .analyze _ => 0x06#8

/-- Decode (R94). It reads no state. -/
def decode (w : Word) : Except Illegal Instr :=
  if rsvField w ≠ 0#24 then .error .reservedBits
  else match (opField w).toNat with
    | 0x00 => if lenField w = 0#32 then .ok .nop else .error .nopWithLength
    | 0x01 => .ok (.config (lenField w).toNat)
    | 0x02 => .ok (.bitrev (lenField w).toNat)
    | 0x03 => .ok (.bfly (lenField w).toNat)
    | 0x04 => .ok (.fft (lenField w).toNat)
    | 0x05 => .ok (.mag (lenField w).toNat)
    | 0x06 => .ok (.analyze (lenField w).toNat)
    | _ => .error .reservedOpcode

/-- The word eight bytes stand for in a transaction: byte b carries bits [8b+7 : 8b] (`20_memory.md` R66). A list of
another length stands for none, since every transaction is 8 bytes (R65). -/
def wordOfBytes : List Byte → Option Word
  | [b0, b1, b2, b3, b4, b5, b6, b7] => some (b7 ++ b6 ++ b5 ++ b4 ++ b3 ++ b2 ++ b1 ++ b0)
  | _ => none

/-- Byte b of a word, its bits [8b+7 : 8b] (`20_memory.md` R66). -/
def byteLane (w : Word) (b : Nat) : Byte := w.extractLsb' (8 * b) 8

/-- The eight bytes of a word, the lowest address first (R66). -/
def bytesOfWord (w : Word) : List Byte :=
  [byteLane w 0, byteLane w 1, byteLane w 2, byteLane w 3, byteLane w 4, byteLane w 5, byteLane w 6, byteLane w 7]

/-- The word of a command, the concatenation of LEN, 24 zero bits and OP (R90, R96). -/
def encode (i : Instr) : Word := BitVec.ofNat 32 i.len ++ 0#24 ++ i.opcode

/-- The instruction the decoder reads from an instruction whose low `nbits` bits are `w`, every higher bit 0, laid out
as the eight bytes of one transaction (R66, R90). -/
def decodeTableWord (nbits w : Nat) : Option Instr :=
  match wordOfBytes (bytesOfWord (BitVec.ofNat 64 (w % 2 ^ nbits))) with
  | some word => (decode word).toOption
  | none => none

end Sys2Proof
end

