-- ==== Sys2Proof/Machine/Memory.lean ====
section
/-! DEFINITION. The buffer storage (`10_state.md` R33 to R35) as one byte memory addressed by aperture offset
(`20_memory.md` R60, R62): the byte at offset off + b of an element at offset off is its lane b (R66). A byte that is not
listed holds no value, as every buffer byte does after reset (`70_reset_and_hazards.md` R210, R218; log 15). -/

namespace Sys2Proof.Machine

/-- Bytes that hold a value, by aperture offset, in rising order. -/
abbrev Memory := List Host.Cell

namespace Memory

/-- What an unlisted address reads as: no value (R43, R218). -/
def unlisted : Option Byte := none

/-- The canonical form: strictly rising addresses. No entry can equal what an unlisted address reads as, which is no
value. -/
abbrev wf (m : Memory) : Prop := m.Pairwise (fun x y => x.1 < y.1)

/-- The byte at an aperture offset, if it holds a value. -/
def readByte : Memory → Nat → Option Byte
  | [], _ => unlisted
  | (k, v) :: rest, a => if k = a then some v else readByte rest a

/-- The element at an aperture offset: it holds a value where all its bytes do (R35). -/
def readWord (m : Memory) (off : Nat) : Option Word :=
  match readByte m off, readByte m (off + 1), readByte m (off + 2), readByte m (off + 3),
      readByte m (off + 4), readByte m (off + 5), readByte m (off + 6), readByte m (off + 7) with
  | some b0, some b1, some b2, some b3, some b4, some b5, some b6, some b7 =>
    wordOfBytes [b0, b1, b2, b3, b4, b5, b6, b7]
  | _, _, _, _, _, _, _, _ => none

/-- The cells of one element; an element that holds no value has none. -/
def cellsOfWord (off : Nat) : Option Word → List Host.Cell
  | none => []
  | some w =>
    [(off, byteLane w 0), (off + 1, byteLane w 1), (off + 2, byteLane w 2), (off + 3, byteLane w 3),
     (off + 4, byteLane w 4), (off + 5, byteLane w 5), (off + 6, byteLane w 6), (off + 7, byteLane w 7)]

/-- The cells of consecutive elements from an aperture offset. -/
def cellsOfWords (off : Nat) : List (Option Word) → List Host.Cell
  | [] => []
  | w :: ws => cellsOfWord off w ++ cellsOfWords (off + 8) ws

/-- Replaces the consecutive elements from an aperture offset, those that hold a value and those that hold none alike,
and leaves every other byte alone. Every change of the memory is this one. -/
def writeWords (m : Memory) (off : Nat) (ws : List (Option Word)) : Memory :=
  m.filter (fun c => decide (c.1 < off)) ++ cellsOfWords off ws
    ++ m.filter (fun c => decide (off + 8 * ws.length ≤ c.1))

/-- Stores one element (R35). -/
def writeWord (m : Memory) (off : Nat) (w : Word) : Memory := writeWords m off [some w]

/-- The n consecutive elements from an aperture offset. -/
def readWords (m : Memory) (off : Nat) : Nat → List (Option Word)
  | 0 => []
  | n + 1 => readWord m off :: readWords m (off + 8) n

end Memory
end Sys2Proof.Machine
end

