-- ==== Sys2Proof/Config.lean ====
section
/-! DEFINITION. The implementation parameters of `00_scope.md` R5 as plain data, and the free values the spec leaves
open. A machine carries its parameters in its state, so a statement over all states holds for every configuration. -/

namespace Sys2Proof

/-- RESET_BUS_RESPONSE (R5, `70_reset_and_hazards.md` R210): what a host transaction gets while rst is asserted. -/
inductive ResetBusResponse where
  /-- Held until rst deasserts. -/
  | stall
  /-- An ERROR response with no effect. -/
  | error
  deriving DecidableEq, Repr

/-- The parameters of one block instance (R5). -/
structure Config where
  /-- LOG2N_MAX, legal in 1 … 17. -/
  log2nMax : Nat
  /-- BASE, the host byte address of the aperture. -/
  base : Nat
  /-- ROMC of TWIDDLE_ROM (`10_state.md` R36). -/
  romc : List Word
  /-- ROMS of TWIDDLE_ROM (`10_state.md` R36). -/
  roms : List Word
  /-- RESET_BUS_RESPONSE. -/
  resetBus : ResetBusResponse
  deriving DecidableEq, Repr

/-- N_MAX = 2^LOG2N_MAX (R5). -/
def Config.nMax (c : Config) : Nat := 2 ^ c.log2nMax

/-- The legal values of the parameters (R5, R60) and the parts of the ROM law that are plain data (R36, R37):
the ranges, the lengths of the tables, their entries finite (exponent field not all ones) and exact at q = 0. The
accuracy part of R37 is `AccurateRom` of Safety.lean. -/
def Config.wf (c : Config) : Bool :=
  decide (1 ≤ c.log2nMax) && decide (c.log2nMax ≤ 17) && decide (c.base % 0x800000 = 0)
    && decide (c.romc.length = c.nMax / 2) && decide (c.roms.length = c.nMax / 2)
    && c.romc.all (fun w => decide (w.toNat / 2 ^ 52 % 2048 ≠ 2047))
    && c.roms.all (fun w => decide (w.toNat / 2 ^ 52 % 2048 ≠ 2047))
    && decide (c.romc[0]? = some 0x3FF0000000000000#64)
    && decide (c.roms[0]? = some 0x0000000000000000#64)

/-! Free values: constants with no body, so nothing can be proved of what they are. Each is applied to the counter
`draws` of the state, which moves on, so two draws of one block need not agree. That two blocks, or two states,
whose counters agree draw alike is the model's choice: the spec relates their draws in no way (`60_exceptions.md` R194;
DESIGN CHOICE, log 19; unsafe for a claim that compares two of them). -/

/-- The word a NaN result's pattern is made from (NAN_RESULT, R5, D6, U4; log 6, log 19). Its quiet-NaN bits are forced by
`Machine.quietNan`; its sign and payload are open. -/
opaque Config.nanDraw : Nat → Word

/-- What a host read of an element that holds no value returns (`70_reset_and_hazards.md` R218, U7; log 7, log 19). -/
opaque Config.unspecifiedWord : Nat → Word

/-- How many host transactions may still go before a command's completion where nothing else says who moves: any
finite number, drawn afresh for each accepted command (`60_exceptions.md` R187, `70_reset_and_hazards.md` R222, D26,
U11; log 18, log 19). -/
opaque Config.completionDelay : Nat → Nat

end Sys2Proof
end

