-- ==== Sys2Proof/Machine/State.lean ====
section
/-! DEFINITION. The state of one block instance (`10_state.md` R20) as plain data, with the model's own fields for what
the outside world does, and the state after reset (R43, `70_reset_and_hazards.md` R210). INVENTORY.md lists every field
with its rule and its reset value. -/

namespace Sys2Proof.Machine

/-- The codes of STATUS.ERRCODE (`60_exceptions.md` R181). Codes 6 to 15 are reserved and never written. -/
inductive ErrCode where
  /-- 0: no rejection since ERR was last cleared. -/
  | none
  /-- 1: LEN fails validSize. -/
  | invalidSize
  /-- 2: LEN differs from SIZE.N. -/
  | lengthMismatch
  /-- 3: SIZE.N = 0. -/
  | notConfigured
  /-- 4: a CMD write while BUSY = 1. -/
  | busy
  /-- 5: the word is illegal. -/
  | illegalCommand
  deriving DecidableEq, Repr

/-- The fields of STATUS that have storage (`10_state.md` R25); its reserved bits read 0 and have none. -/
structure Status where
  busy : Bool
  done : Bool
  err : Bool
  errcode : ErrCode
  /-- CUR_OP, the opcode of the most recently accepted command. -/
  curOp : BitVec 8
  deriving DecidableEq, Repr

/-- The fields of CTRL that have storage (R26). -/
structure Ctrl where
  ieDone : Bool
  ieErr : Bool
  deriving DecidableEq, Repr

/-- The fields of SIZE that have storage (R27). N is the configured size N_cfg (R38). -/
structure Size where
  n : Nat
  log2n : Nat
  deriving DecidableEq, Repr

/-- One host transaction at the request port (`20_memory.md` R79): a 23-bit offset, the width in bytes and, for a
write, the data. -/
inductive Request where
  | read (off : BitVec 23) (width : Nat)
  | write (off : BitVec 23) (width : Nat) (data : Word)
  deriving DecidableEq, Repr

/-- The two answers of the response port (R79). -/
inductive BusStatus where
  | okay
  | error
  deriving DecidableEq, Repr

/-- One answer: OKAY or ERROR, and the read data of a read; a write's answer carries none. -/
structure Response where
  status : BusStatus
  data : Option Word
  deriving DecidableEq, Repr

/-- One entry of the schedule: whose step comes next (`60_exceptions.md` R187), or the level the reset input takes
(`70_reset_and_hazards.md` R210). -/
inductive Tick where
  /-- The host's oldest transaction takes effect. -/
  | host
  /-- The engine takes its completion step, if a command is pending. -/
  | engine
  /-- The reset input takes this level. -/
  | rst (level : Bool)
  deriving DecidableEq, Repr

/-- Whose step `exec` carries out: the host's CMD write issues a command (`40_control.md` R110), the engine completes
one (R111). -/
inductive Turn where
  | host
  | engine
  deriving DecidableEq, Repr

/-- The state of one block instance. -/
structure State where
  /-- The parameters (R5), with ROMC and ROMS (R36) and what ID is made from (R24). No step changes them. -/
  cfg : Config
  /-- STATUS (R25). -/
  status : Status
  /-- CTRL (R26). -/
  ctrl : Ctrl
  /-- SIZE (R27). -/
  size : Size
  /-- REAL, IMAG and MAGB (R33, R34), by aperture offset. -/
  mem : Memory
  /-- The accepted command that has not completed (R40). -/
  pending : Option Instr
  /-- The level of the reset input. -/
  rst : Bool
  /-- The model's own: transactions issued and not yet answered, oldest first (R72). -/
  requests : List Request
  /-- The model's own: answers given, oldest first (R79). -/
  responses : List Response
  /-- The model's own: whose step comes next, first entry first (R187; log 2). -/
  schedule : List Tick
  /-- The model's own: whose step exec carries out (log 3). -/
  turn : Turn
  /-- The model's own: how many host transactions may still go before the pending command's completion where the
  schedule says nothing more (R222; log 18). -/
  delay : Nat
  /-- The model's own: how many free values have been drawn (log 9). -/
  draws : Nat
  deriving DecidableEq, Repr

/-- Why the machine stops with a fault: never. An accepted command never fails, a rejected one sets STATUS.ERR and goes
on, and a bus error is a response (`60_exceptions.md` R180), so no constructor is needed. -/
inductive Fault where
  deriving DecidableEq, Repr

/-- Why an instruction has no meaning. -/
inductive Refusal where
  /-- Raised by an arm of `exec` whose instruction has no meaning yet; no arm of this model raises it. Safe. -/
  | notModelled (mnemonic : String)
  deriving DecidableEq, Repr

/-- The registers and buffers after reset (R43, R210) of a block with the parameters `c`, with nothing waiting at its
ports. -/
def State.resetOf (c : Config) : State :=
  { cfg := c
    status := { busy := false, done := false, err := false, errcode := .none, curOp := 0x00#8 }
    ctrl := { ieDone := false, ieErr := false }
    size := { n := 0, log2n := 0 }
    mem := []
    pending := none
    rst := false
    requests := []
    responses := []
    schedule := []
    turn := .host
    delay := 0
    draws := 0 }

/-- The machine right after reset, in the spec's reference configuration (R5; log 4). -/
def State.reset : State := State.resetOf referenceConfig

end Sys2Proof.Machine
end

