-- ==== Sys2Proof/Machine/Flags.lean ====
section
/-! DEFINITION. Every flag computation: the words the registers read as (`10_state.md` R24 to R27), the W1C write of
STATUS (R25), the write of CTRL (R26) and the interrupt line (R42, `60_exceptions.md` R189). -/

namespace Sys2Proof.Machine

/-- The number a code is written as in STATUS.ERRCODE (`60_exceptions.md` R181). -/
def ErrCode.code : ErrCode → BitVec 4
  | .none => 0#4
  | .invalidSize => 1#4
  | .lengthMismatch => 2#4
  | .notConfigured => 3#4
  | .busy => 4#4
  | .illegalCommand => 5#4

/-- ID: reserved [63:48], LOG2N_MAX [47:40], IFVER [39:32], MAGIC [31:0] (R24). -/
def idWord (c : Config) : Word := 0#16 ++ BitVec.ofNat 8 c.log2nMax ++ 0x01#8 ++ 0x46465432#32

/-- STATUS as a read returns it (R25): reserved [63:24], CUR_OP [23:16], reserved [15:12], ERRCODE [11:8], reserved
[7:3], ERR [2], DONE [1], BUSY [0]. -/
def Status.word (t : Status) : Word :=
  0#40 ++ t.curOp ++ 0#4 ++ t.errcode.code ++ 0#5 ++ BitVec.ofBool t.err ++ BitVec.ofBool t.done ++ BitVec.ofBool t.busy

/-- CTRL as a read returns it (R26): reserved [63:2], IE_ERR [1], IE_DONE [0]. -/
def Ctrl.word (t : Ctrl) : Word := 0#62 ++ BitVec.ofBool t.ieErr ++ BitVec.ofBool t.ieDone

/-- SIZE as a read returns it (R27): reserved [63:40], LOG2N [39:32], N [31:0]. -/
def Size.word (t : Size) : Word := 0#24 ++ BitVec.ofNat 8 t.log2n ++ BitVec.ofNat 32 t.n

/-- What a host write of v to STATUS leaves (R25): bit 1 clears DONE, bit 2 clears ERR and ERRCODE, the rest of v is
ignored. -/
def Status.clearedBy (t : Status) (v : Word) : Status :=
  { t with
    done := t.done && !v.getLsbD 1
    err := t.err && !v.getLsbD 2
    errcode := if v.getLsbD 2 then .none else t.errcode }

/-- What a host write of v to CTRL leaves (R26): the two enables are v's low bits, the rest of v is ignored. -/
def ctrlOf (v : Word) : Ctrl := { ieDone := v.getLsbD 0, ieErr := v.getLsbD 1 }

/-- irq (R42, R189). -/
def State.irq (s : State) : Bool := (s.status.done && s.ctrl.ieDone) || (s.status.err && s.ctrl.ieErr)

end Sys2Proof.Machine
end

