-- ==== Sys2Proof/Machine/Binary64.lean ====
section
/-! DEFINITION. Binary64 values, their patterns, and the five operations (`00_scope.md` R8, R9; D2 to D6): each computes
its result exactly and rounds it once to nearest, ties to even. The meaning of the operations is IEEE 754-2019's, which
the spec takes from general knowledge (93 G1, log 10). A finite value is kept as a sign and a whole number of units of
2^-1074, the smallest positive binary64 number; every finite binary64 value is such a number. -/

namespace Sys2Proof.Machine

/-- A binary64 value (R8). NaN is one value: which NaN pattern stands for it is open (D6). -/
inductive Binary64 where
  /-- Not a number. -/
  | nan
  /-- ±∞; `true` is −∞. -/
  | inf (neg : Bool)
  /-- ±units · 2^-1074; `fin true 0` is −0.0. -/
  | fin (neg : Bool) (units : Nat)
  deriving DecidableEq, Repr

/-- f64(w): the value the pattern w encodes (R8, R9). Sign in bit 63, exponent in [62:52], fraction in [51:0]. -/
def f64 (w : Word) : Binary64 :=
  let neg := w.getLsbD 63
  let e := w.toNat / 2 ^ 52 % 2048
  let f := w.toNat % 2 ^ 52
  if e = 2047 then (if f = 0 then .inf neg else .nan)
  else if e = 0 then .fin neg f
  else .fin neg ((2 ^ 52 + f) * 2 ^ (e - 1))

/-- The sign bit of a pattern, at its place. -/
def signBit (neg : Bool) : Nat := if neg then 2 ^ 63 else 0

/-- How many low bits of a number of units a binary64 significand of 53 bits cannot hold. -/
def excessBits (u : Nat) : Nat := Nat.log2 u - 52

/-- bits64(x): the pattern of a value (R8); `nanPattern` is the pattern a NaN gets. -/
def bits64 (nanPattern : Word) : Binary64 → Word
  | .nan => nanPattern
  | .inf neg => BitVec.ofNat 64 (signBit neg + 0x7FF0000000000000)
  | .fin neg u => BitVec.ofNat 64 (signBit neg + (excessBits u * 2 ^ 52 + u / 2 ^ excessBits u))

/-- A quiet NaN: exponent all ones and the fraction's top bit 1; sign and payload are the draw's (NAN_RESULT, R5). -/
def quietNan (draw : Word) : Word := draw ||| 0x7FF8000000000000#64

/-- 1 unit is 2^-1074, so 2^1074 units are 1.0. Irreducible, so that no proof unfolds the number by accident. -/
@[irreducible] def unitsOfOne : Nat := 2 ^ 1074

/-- The first number of units too large for binary64: 2^1024. A result that rounds to it or beyond overflows to ±∞
(R9). Irreducible, as `unitsOfOne`. -/
@[irreducible] def overflowUnits : Nat := 2 ^ 2098

/-- The number of units nearest to the exact value (p/q) among those with a significand of at most 53 bits, ties to the
even significand (RNE, R9). `d` is the spacing of those numbers at p/q times q, so `n / d` is the truncated
significand. -/
def nearestUnits (p q : Nat) : Nat :=
  let n := p * unitsOfOne
  let x := excessBits (n / q)
  let d := q * 2 ^ x
  let k := n / d
  let r := n % d
  (if 2 * r < d ∨ (2 * r = d ∧ k % 2 = 0) then k else k + 1) * 2 ^ x

/-- The binary64 result whose exact magnitude is p/q: rounded once, ±∞ on overflow (R9). -/
def rounded (neg : Bool) (p q : Nat) : Binary64 :=
  let u := nearestUnits p q
  if u < overflowUnits then .fin neg u else .inf neg

/-- A signed number of units. -/
def signedUnits (neg : Bool) (u : Nat) : Int := if neg then -(u : Int) else (u : Int)

/-- −x; it turns the sign of a zero and of an infinity too. -/
def fneg : Binary64 → Binary64
  | .nan => .nan
  | .inf s => .inf (!s)
  | .fin s u => .fin (!s) u

/-- fadd (R9). ∞ − ∞ is NaN; an exact zero sum is −0.0 only where both operands are −0.0. -/
def fadd : Binary64 → Binary64 → Binary64
  | .nan, _ => .nan
  | .inf _, .nan => .nan
  | .inf s, .inf t => if s = t then .inf s else .nan
  | .inf s, .fin _ _ => .inf s
  | .fin _ _, .nan => .nan
  | .fin _ _, .inf t => .inf t
  | .fin s u, .fin t v =>
    let x := signedUnits s u + signedUnits t v
    if x = 0 then .fin (s && t) 0 else rounded (decide (x < 0)) x.natAbs unitsOfOne

/-- fsub (R9): x − y is x + (−y). -/
def fsub (a b : Binary64) : Binary64 := fadd a (fneg b)

/-- fmul (R9). ∞ · 0 is NaN; the sign is the exclusive or of the signs, of a zero and an infinity too. -/
def fmul : Binary64 → Binary64 → Binary64
  | .nan, _ => .nan
  | .inf _, .nan => .nan
  | .inf s, .inf t => .inf (s ^^ t)
  | .inf s, .fin t v => if v = 0 then .nan else .inf (s ^^ t)
  | .fin _ _, .nan => .nan
  | .fin s u, .inf t => if u = 0 then .nan else .inf (s ^^ t)
  | .fin s u, .fin t v => rounded (s ^^ t) (u * v) (unitsOfOne * unitsOfOne)

/-- fdiv (R9). 0/0 and ∞/∞ are NaN; a finite number over 0 is ±∞. -/
def fdiv : Binary64 → Binary64 → Binary64
  | .nan, _ => .nan
  | .inf _, .nan => .nan
  | .inf _, .inf _ => .nan
  | .inf s, .fin t _ => .inf (s ^^ t)
  | .fin _ _, .nan => .nan
  | .fin s _, .inf t => .fin (s ^^ t) 0
  | .fin s u, .fin t v =>
    if v = 0 then (if u = 0 then .nan else .inf (s ^^ t)) else rounded (s ^^ t) u v

/-- One bit of the square root per step, the highest first: `r` is the root found so far. -/
def isqrtLoop (n : Nat) : Nat → Nat → Nat
  | 0, r => r
  | b + 1, r => if (r + 2 ^ b) * (r + 2 ^ b) ≤ n then isqrtLoop n b (r + 2 ^ b) else isqrtLoop n b r

/-- The integer square root, rounded down. -/
def isqrt (n : Nat) : Nat := isqrtLoop n (Nat.log2 n / 2 + 1) 0

/-- The square root of u units as a fraction with two bits to spare over every rounding boundary: the root of
u · 4^55, with an odd last bit where it is not exact, over 2^56 · 2^537. The square root of a unit is 2^-537. -/
def sqrtFraction (u : Nat) : Nat × Nat :=
  let n := u * 4 ^ 55
  let r := isqrt n
  (2 * r + (if r * r = n then 0 else 1), 2 ^ 593)

/-- fsqrt (R9). The root of a negative number is NaN; the root of ±0 is that zero. -/
def fsqrt : Binary64 → Binary64
  | .nan => .nan
  | .inf s => if s then .nan else .inf false
  | .fin s u =>
    if u = 0 then .fin s 0
    else if s then .nan
    else rounded false (sqrtFraction u).1 (sqrtFraction u).2

/-- A natural number as a binary64 value; exact for the powers of two that R160 divides by. -/
def ofNat64 (n : Nat) : Binary64 := rounded false n 1

end Sys2Proof.Machine
end

