-- ==== Sys2Proof/Machine/Operands.lean ====
section
/-! DEFINITION. Every operand form: the LEN operand and its checks (`00_scope.md` R6, `40_control.md` R110), the
aperture's map from an offset to what it names (`20_memory.md` R62), and the binary64 operands of the datapath, each a
value or no value (`70_reset_and_hazards.md` R218). -/

namespace Sys2Proof.Machine

/-- validSize(n): n = 2^L with 1 ≤ L ≤ LOG2N_MAX (R6). -/
def validSize (c : Config) (n : Nat) : Bool :=
  decide (2 ^ Nat.log2 n = n) && decide (1 ≤ Nat.log2 n) && decide (Nat.log2 n ≤ c.log2nMax)

/-- The check of CONFIG's and ANALYZE's LEN (R110): the code of a failure. -/
def State.sizeError (s : State) (n : Nat) : Option ErrCode :=
  if validSize s.cfg n then none else some .invalidSize

/-- The checks of BITREV's, BFLY's, FFT's and MAG's LEN, in their order (R110, `60_exceptions.md` R185). -/
def State.lengthError (s : State) (n : Nat) : Option ErrCode :=
  if !validSize s.cfg n then some .invalidSize
  else if s.size.n = 0 then some .notConfigured
  else if n ≠ s.size.n then some .lengthMismatch
  else none

/-- Whether a command's operand passes the checks of R110 that come after BUSY and ILLEGAL_COMMAND: the code of the
first that fails. NOP has no operand to check (R112). -/
def State.operandError (s : State) : Instr → Option ErrCode
  | .nop => none
  | .config n => s.sizeError n
  | .bitrev n => s.lengthError n
  | .bfly n => s.lengthError n
  | .fft n => s.lengthError n
  | .mag n => s.lengthError n
  | .analyze n => s.sizeError n

/-- The offset of REAL's window (R62). -/
def realBase : Nat := 0x100000
/-- The offset of IMAG's window (R62). -/
def imagBase : Nat := 0x200000
/-- The offset of MAGB's window (R62). -/
def magBase : Nat := 0x300000
/-- The span of a window (R62). -/
def windowSpan : Nat := 0x100000
/-- The span of the aperture (R60). -/
def apertureSpan : Nat := 0x800000

/-- The host byte address of an offset (R60). -/
def busAddress (c : Config) (off : Nat) : Nat := c.base + off

/-- What an aligned offset names (R62, `10_state.md` R23). -/
inductive Target where
  | id
  | status
  | ctrl
  | size
  | cmd
  /-- An element of REAL, IMAG or MAGB, at its own offset. -/
  | buffer
  | romc (q : Nat)
  | roms (q : Nat)
  | unmapped
  deriving DecidableEq, Repr

/-- The control registers' offsets (R23); the rest below 0x10_0000 is reserved or unmapped (R29, R62). -/
def registerAt (off : Nat) : Target :=
  if off = 0x00 then .id
  else if off = 0x08 then .status
  else if off = 0x10 then .ctrl
  else if off = 0x18 then .size
  else if off = 0x20 then .cmd
  else .unmapped

/-- The aperture's map (R62). REAL and IMAG have N_MAX elements, MAGB, ROMC and ROMS N_MAX/2; an offset past a window's
last element is unmapped. -/
def target (c : Config) (off : Nat) : Target :=
  let i := off % windowSpan / 8
  match off / windowSpan with
  | 0 => registerAt off
  | 1 => if i < c.nMax then .buffer else .unmapped
  | 2 => if i < c.nMax then .buffer else .unmapped
  | 3 => if i < c.nMax / 2 then .buffer else .unmapped
  | 4 => if i < c.nMax / 2 then .romc i else .unmapped
  | 5 => if i < c.nMax / 2 then .roms i else .unmapped
  | _ => .unmapped

/-- A datapath operand: a binary64 value, or no value (R218). -/
abbrev Element := Option Binary64

/-- A complex sample: real and imaginary part (`00_scope.md` R8). -/
abbrev Sample := Element × Element

/-- A two-operand operation on elements: the result holds no value where an operand does (R218; log 8). -/
def lift2 (f : Binary64 → Binary64 → Binary64) : Element → Element → Element
  | some x, some y => some (f x y)
  | _, _ => none

/-- The values of consecutive buffer elements (R8). -/
def elements (m : Memory) (off n : Nat) : List Element := (Memory.readWords m off n).map (Option.map f64)

/-- The samples REAL[0 .. n), IMAG[0 .. n). -/
def State.samples (s : State) (n : Nat) : List Sample :=
  (elements s.mem realBase n).zip (elements s.mem imagBase n)

/-- The patterns the datapath stores for its results (R8): a NaN gets a quiet NaN drawn afresh for each element, the
first one with draw number `k` (R5, D6; log 6), and a result that holds no value leaves none (R218). -/
def patterns : Nat → List Element → List (Option Word)
  | _, [] => []
  | k, e :: es => e.map (bits64 (quietNan (Config.nanDraw k))) :: patterns (k + 1) es

/-- TW_N(k): the ROM pair at k · (N_MAX / N) (`41_transform.md` R130). -/
def twiddle (c : Config) (n k : Nat) : Sample :=
  ((c.romc[k * (c.nMax / n)]?).map f64, (c.roms[k * (c.nMax / n)]?).map f64)

end Sys2Proof.Machine
end

