-- ==== Sys2Proof/Machine/Ops.lean ====
section
/-! DEFINITION. The shared operations: rejecting a command, the block's one entry into an error (`60_exceptions.md`
R183); accepting and completing one (`40_control.md` R110, R111); reset (`70_reset_and_hazards.md` R210); the host
transactions (`20_memory.md` R67, R68); and which agent moves next (R187). -/

namespace Sys2Proof.Machine

/-! ## The command lifecycle -/

/-- raise CmdError(e): ERR and ERRCODE, and nothing else (R183). -/
def State.reject (s : State) (e : ErrCode) : State := { s with status := { s.status with err := true, errcode := e } }

/-- Acceptance (R110): pending, BUSY, DONE, CUR_OP. How long the host may go first is drawn here (R222; log 18). -/
def State.accept (s : State) (i : Instr) : State :=
  { s with
    pending := some i
    status := { s.status with busy := true, done := false, curOp := i.opcode }
    delay := Config.completionDelay s.draws
    draws := s.draws + 1 }

/-- IssueCommand for a legal word (R110): BUSY first, then the command's own checks, then acceptance. -/
def State.issue (s : State) (i : Instr) : State :=
  if s.status.busy then s.reject .busy
  else match s.operandError i with
    | some e => s.reject e
    | none => s.accept i

/-- IssueCommand for an illegal word (R93, R110, R185): BUSY wins over ILLEGAL_COMMAND. -/
def State.issueIllegal (s : State) : State :=
  if s.status.busy then s.reject .busy else s.reject .illegalCommand

/-- What completion writes after the command's pseudocode (R111). -/
def State.complete (s : State) : State :=
  { s with pending := none, status := { s.status with busy := false, done := true } }

/-- A command's two steps: in the host's turn it is issued (R110), in the engine's turn its pseudocode `effect` takes
place and it completes (R111). -/
def State.command (s : State) (i : Instr) (effect : State → State) : Host.Outcome State Fault Refusal :=
  match s.turn with
  | .host => .next (s.issue i)
  | .engine => .next (effect s).complete

/-! ## Reset -/

/-- Reset() (R210, R211). The parameters are constants; what waits outside the block, the schedule and the counter of
free values are not the block's state and stay. -/
def State.doReset (s : State) : State :=
  { State.resetOf s.cfg with
    rst := s.rst
    requests := s.requests
    responses := s.responses
    schedule := s.schedule
    turn := s.turn
    draws := s.draws }

/-- The reset input takes a level (R210): the block takes the reset state while rst is asserted and in the step in
which it deasserts. -/
def State.driveRst (s : State) (level : Bool) : State :=
  if level || s.rst then { s.doReset with rst := level } else s

/-! ## Host transactions -/

/-- One answer at the response port, after the earlier ones (`20_memory.md` R79). -/
def State.respond (s : State) (r : Response) : State := { s with responses := s.responses ++ [r] }

/-- The answer of a read that raises BusError (`60_exceptions.md` R184). -/
def readError : Response := { status := .error, data := some 0x0000000000000000#64 }

/-- The answer of a write that raises BusError (R184). -/
def writeError : Response := { status := .error, data := none }

/-- The OKAY answer of a read. -/
def readOkay (w : Word) : Response := { status := .okay, data := some w }

/-- The OKAY answer of a write. -/
def writeOkay : Response := { status := .okay, data := none }

/-- BusError for this transaction (R184): the answer alone. -/
def busError : Request → Response
  | .read _ _ => readError
  | .write _ _ _ => writeError

/-- The transaction has the one legal width and is aligned (`20_memory.md` R65). -/
def legalAccess (off width : Nat) : Bool := decide (width = 8) && decide (off % 8 = 0)

/-- The 64-bit register or element a target at an offset stands for, where it holds a value (R67): CMD is read as 0
(`10_state.md` R28). -/
def State.contents (s : State) (off : Nat) : Target → Option Word
  | .id => some (idWord s.cfg)
  | .status => some s.status.word
  | .ctrl => some s.ctrl.word
  | .size => some s.size.word
  | .cmd => some 0x0000000000000000#64
  | .buffer => Memory.readWord s.mem off
  | .romc q => s.cfg.romc[q]?
  | .roms q => s.cfg.roms[q]?
  | .unmapped => none

/-- The byte at a host byte address: the lane b of the register or element at the 8-byte offset it lies in, b bytes
above that offset (`20_memory.md` R60, R66). -/
def State.hostByte (s : State) (address : Nat) : Option Byte :=
  if s.cfg.base ≤ address ∧ address < s.cfg.base + apertureSpan then
    let off := address - s.cfg.base
    (s.contents (off / 8 * 8) (target s.cfg (off / 8 * 8))).map (fun w => byteLane w (off % 8))
  else none

/-- The answer to a read of a register or element: its word, or an unspecified word drawn afresh where it holds no value
(`70_reset_and_hazards.md` R218; log 7). -/
def State.readElement (s : State) : Option Word → State
  | some w => s.respond (readOkay w)
  | none => { s.respond (readOkay (Config.unspecifiedWord s.draws)) with draws := s.draws + 1 }

/-- MemRead (R67). -/
def State.hostRead (s : State) (off width : Nat) : State :=
  if legalAccess off width then
    match target s.cfg off with
    | .unmapped => s.respond readError
    | .buffer => if s.status.busy then s.respond readError else s.readElement (s.contents off .buffer)
    | t => s.readElement (s.contents off t)
  else s.respond readError

/-- A CMD write of w (R68, R110): the write is answered OKAY whatever becomes of the command. A legal word is handed to
`exec` in the host's turn; an illegal one is rejected here (R93). -/
def State.present (s : State) (w : Word) : State × Option Instr :=
  let s' := { s.respond writeOkay with turn := .host }
  match decode w with
  | .ok i => (s', some i)
  | .error _ => (s'.issueIllegal, none)

/-- MemWrite (R68). The second component is the command to issue, if the write presents a legal one. -/
def State.hostWrite (s : State) (off width : Nat) (v : Word) : State × Option Instr :=
  if legalAccess off width then
    match target s.cfg off with
    | .status => ({ s.respond writeOkay with status := s.status.clearedBy v }, none)
    | .ctrl => ({ s.respond writeOkay with ctrl := ctrlOf v }, none)
    | .cmd => s.present v
    | .buffer =>
      if s.status.busy then (s.respond writeError, none)
      else ({ s.respond writeOkay with mem := Memory.writeWord s.mem off v }, none)
    | .id => (s.respond writeError, none)
    | .size => (s.respond writeError, none)
    | .romc _ => (s.respond writeError, none)
    | .roms _ => (s.respond writeError, none)
    | .unmapped => (s.respond writeError, none)
  else (s.respond writeError, none)

/-- One host transaction takes its whole effect (R69, R72). -/
def State.serve (s : State) : Request → State × Option Instr
  | .read off width => (s.hostRead off.toNat width, none)
  | .write off width v => s.hostWrite off.toNat width v

/-! ## Who moves next -/

/-- The host's step: its oldest transaction, if there is one (R72). While rst is asserted the block takes none: it is
held, or answered ERROR, as RESET_BUS_RESPONSE says (`70_reset_and_hazards.md` R210). -/
def State.hostStep (s : State) : State × Option Instr :=
  match s.requests with
  | [] => (if s.rst then s.doReset else s, none)
  | r :: rest =>
    if s.rst then
      match s.cfg.resetBus with
      | .stall => (s.doReset, none)
      | .error => ({ s.doReset.respond (busError r) with requests := rest }, none)
    else { s with requests := rest }.serve r

/-- The engine's step: the completion of the pending command (R111), enabled only when there is one. -/
def State.engineStep (s : State) : State × Option Instr :=
  if s.rst then (s.doReset, none)
  else match s.pending with
    | some i => ({ s with turn := .engine }, some i)
    | none => (s, none)

/-- The step where the schedule says nothing more: the only agent that is ready moves; where both are, either order can
happen (`60_exceptions.md` R187): the host goes first until the delay drawn for the command is used up, then the engine
(`70_reset_and_hazards.md` R222; log 18); where none is, the block keeps all its state (R196). -/
def State.unscheduledStep (s : State) : State × Option Instr :=
  match s.requests, s.pending with
  | [], _ => s.engineStep
  | _ :: _, none => s.hostStep
  | _ :: _, some _ =>
    if s.delay = 0 then s.engineStep else { s with delay := s.delay - 1 }.hostStep

/-- Everything of one step but the command itself: the state `exec` is to run in, and the command it runs, if any. -/
def State.front (s : State) : State × Option Instr :=
  match s.schedule with
  | [] => s.unscheduledStep
  | .host :: rest => { s with schedule := rest }.hostStep
  | .engine :: rest => { s with schedule := rest }.engineStep
  | .rst level :: rest => ({ s with schedule := rest }.driveRst level, none)

end Sys2Proof.Machine
end

