-- ==== Sys2Proof/Machine/Control.lean ====
section
/-! DEFINITION. The two commands that move no data: NOP and CONFIG (`40_control.md` R112, R113). -/

namespace Sys2Proof.Machine

/-- Execute(CONFIG, n): SIZE.N and SIZE.LOG2N (R113). -/
def configEffect (n : Nat) (s : State) : State := { s with size := { n := n, log2n := Nat.log2 n } }

/-- NOP (R112): its pseudocode is skip. -/
def execNop (s : State) : Host.Outcome State Fault Refusal := s.command .nop id

/-- CONFIG n (R113). -/
def execConfig (n : Nat) (s : State) : Host.Outcome State Fault Refusal :=
  s.command (.config n) (configEffect n)

end Sys2Proof.Machine
end

