-- ==== Sys2Proof/Machine/Transform.lean ====
section
/-! DEFINITION. The transform (`41_transform.md`): the bit-reversal permutation, the butterfly and its network, and the
commands BITREV, BFLY and FFT. The permutation and the network are written over any element type, so that R139 can be
stated of the same network over the complex numbers. A command reads its elements, computes, and writes them back at
once: only the effect visible at its completion is architectural (`10_state.md` R41, `00_scope.md` R10). -/

namespace Sys2Proof.Machine

/-! ## Bit reversal -/

/-- rev_L(i): the L-bit reversal of i (R132). -/
def rev : Nat → Nat → Nat
  | 0, _ => 0
  | l + 1, i => i % 2 * 2 ^ l + rev l (i / 2)

/-- The permutation of R133 and R134, `y` starting as the old contents: for i = 0 .. N−1, Y[rev_L(i)] <- X[i], all of X
being the snapshot. -/
def permute {α : Type} (l : Nat) (x : List α) : List α :=
  (List.range x.length).foldl (fun y i => match x[i]? with
    | some v => y.set (rev l i) v
    | none => y) x

/-! ## Butterflies -/

/-- Butterfly(ar, ai, br, bi, c, s) (R135): a is the lower element, b the upper, w = (c, s). Every operation is rounded
once, in this order, and both outputs use the old lower value. -/
def butterfly (w a b : Sample) : Sample × Sample :=
  let tr := lift2 fadd (lift2 fmul b.1 w.1) (lift2 fmul b.2 w.2)
  let ti := lift2 fsub (lift2 fmul b.2 w.1) (lift2 fmul b.1 w.2)
  ((lift2 fadd a.1 tr, lift2 fadd a.2 ti), (lift2 fsub a.1 tr, lift2 fsub a.2 ti))

/-- One butterfly in place: the lower element at index `lo`, the upper at `lo + hm`, twiddle index k (R136). -/
def butterflyAt {α : Type} (bf : Nat → α → α → α × α) (hm : Nat) (x : List α) (p : Nat × Nat) : List α :=
  match x[p.1]?, x[p.1 + hm]? with
  | some a, some b => (x.set p.1 (bf p.2 a b).1).set (p.1 + hm) (bf p.2 a b).2
  | _, _ => x

/-- The butterflies of the stage with blocks of m elements, as pairs of the lower index i + j and the twiddle index
k = j · (N / m), in the order of R136: i = 0, m, 2m, … < N, then j = 0 .. hm−1. -/
def stagePairs (n m : Nat) : List (Nat × Nat) :=
  (List.range (n / m)).flatMap (fun block => (List.range (m / 2)).map (fun j => (block * m + j, j * (n / m))))

/-- One stage (R136). -/
def stage {α : Type} (bf : Nat → α → α → α × α) (n : Nat) (x : List α) (m : Nat) : List α :=
  (stagePairs n m).foldl (butterflyAt bf (m / 2)) x

/-- Butterflies(N) (R136): the stages m = 2, 4, 8, …, N in order. `bf k a b` is the butterfly with twiddle index k. -/
def network {α : Type} (bf : Nat → α → α → α × α) (n : Nat) (x : List α) : List α :=
  ((List.range (Nat.log2 n)).map (fun t => 2 ^ (t + 1))).foldl (stage bf n) x

/-! ## The commands -/

/-- REAL[0 .. n) and IMAG[0 .. n) replaced by these contents. -/
def State.storeComplex (s : State) (re im : List (Option Word)) : State :=
  { s with mem := Memory.writeWords (Memory.writeWords s.mem realBase re) imagBase im }

/-- Execute(BITREV, n) (R134): the words move bit for bit, those that hold no value too (`70_reset_and_hazards.md`
R218). -/
def bitrevEffect (n : Nat) (s : State) : State :=
  s.storeComplex (permute (Nat.log2 n) (Memory.readWords s.mem realBase n))
    (permute (Nat.log2 n) (Memory.readWords s.mem imagBase n))

/-- What the network makes of the samples of size n (R136), with the twiddles TW_n (R130). -/
def State.transformed (s : State) (n : Nat) : List Sample :=
  network (fun k => butterfly (twiddle s.cfg n k)) n (s.samples n)

/-- Execute(BFLY, n) (R137). The 2n stored elements use 2n draws (log 6). -/
def bflyEffect (n : Nat) (s : State) : State :=
  { s.storeComplex (patterns s.draws ((s.transformed n).map Prod.fst))
      (patterns (s.draws + n) ((s.transformed n).map Prod.snd)) with
    draws := s.draws + 2 * n }

/-- Execute(FFT, n) (R138): BITREV, then the network. -/
def fftEffect (n : Nat) (s : State) : State := bflyEffect n (bitrevEffect n s)

/-- BITREV n (R134). -/
def execBitrev (n : Nat) (s : State) : Host.Outcome State Fault Refusal :=
  s.command (.bitrev n) (bitrevEffect n)

/-- BFLY n (R137). -/
def execBfly (n : Nat) (s : State) : Host.Outcome State Fault Refusal :=
  s.command (.bfly n) (bflyEffect n)

/-- FFT n (R138). -/
def execFft (n : Nat) (s : State) : Host.Outcome State Fault Refusal :=
  s.command (.fft n) (fftEffect n)

end Sys2Proof.Machine
end

