-- ==== Sys2Proof/Machine/Spectrum.lean ====
section
/-! DEFINITION. The magnitude unit and the analysis (`42_spectrum.md`): MAG (R160, R161) and ANALYZE (R162). -/

namespace Sys2Proof.Machine

/-- Magnitude(re, im, i, N) (R160): square, square, add, root, divide, each rounded once; bin 0 is divided by N, the
others by N/2. -/
def magnitude (n i : Nat) (re im : Binary64) : Binary64 :=
  let p := fadd (fmul re re) (fmul im im)
  let r := fsqrt p
  if i = 0 then fdiv r (ofNat64 n) else fdiv r (ofNat64 (n / 2))

/-- The magnitudes of consecutive bins, the first of them bin i; a bin with a part that holds no value has none
(`70_reset_and_hazards.md` R218). -/
def magnitudes (n : Nat) : Nat → List Sample → List Element
  | _, [] => []
  | i, x :: xs => lift2 (magnitude n i) x.1 x.2 :: magnitudes n (i + 1) xs

/-- Execute(MAG, n) (R161): MAGB[0 .. n/2) from REAL[0 .. n/2) and IMAG[0 .. n/2). The n/2 stored elements use n/2
draws (log 6). -/
def magEffect (n : Nat) (s : State) : State :=
  { s with
    mem := Memory.writeWords s.mem magBase (patterns s.draws (magnitudes n 0 (s.samples (n / 2))))
    draws := s.draws + n / 2 }

/-- IMAG[0 .. n) <- +0.0 (R162). -/
def zeroImag (n : Nat) (s : State) : State :=
  { s with mem := Memory.writeWords s.mem imagBase (List.replicate n (some 0x0000000000000000#64)) }

/-- Execute(ANALYZE, n) (R162): configure, zero IMAG, transform, magnitudes. -/
def analyzeEffect (n : Nat) (s : State) : State := magEffect n (fftEffect n (zeroImag n (configEffect n s)))

/-- MAG n (R161). -/
def execMag (n : Nat) (s : State) : Host.Outcome State Fault Refusal :=
  s.command (.mag n) (magEffect n)

/-- ANALYZE n (R162): no NOT_CONFIGURED and no LENGTH_MISMATCH check. -/
def execAnalyze (n : Nat) (s : State) : Host.Outcome State Fault Refusal :=
  s.command (.analyze n) (analyzeEffect n)

end Sys2Proof.Machine
end

