-- ==== Sys2Proof/Machine/Dispatch.lean ====
section
/-! DEFINITION. One arm per constructor of Instr: what each command does in the turn the state names. -/

namespace Sys2Proof.Machine

/-- The meaning of a command. -/
def exec (i : Instr) (s : State) : Host.Outcome State Fault Refusal :=
  match i with
  | .nop => Sys2Proof.Machine.execNop s
  | .config n => Sys2Proof.Machine.execConfig n s
  | .bitrev n => Sys2Proof.Machine.execBitrev n s
  | .bfly n => Sys2Proof.Machine.execBfly n s
  | .fft n => Sys2Proof.Machine.execFft n s
  | .mag n => Sys2Proof.Machine.execMag n s
  | .analyze n => Sys2Proof.Machine.execAnalyze n s

end Sys2Proof.Machine
end

