-- ==== Sys2Proof/Machine/Step.lean ====
section
/-! DEFINITION. One step of the machine, and where a command word stands so that the next step runs it. -/

namespace Sys2Proof.Machine

/-- One step: one host transaction, one completion, one change of rst, or nothing where none is enabled. A legal CMD
write and a completion run the command (`40_control.md` R110, R111). -/
def step (s : State) : Host.Outcome State Fault Refusal :=
  match s.front with
  | (s', some i) => exec i s'
  | (s', none) => .next s'

/-- The host's next transaction is the CMD write of this word (`10_state.md` R28), the host moves next and rst is not
asserted (log 1). -/
def State.withFetchWord (s : State) (nbits w : Nat) : State :=
  { s with
    rst := false
    requests := .write 0x20#23 8 (BitVec.ofNat 64 (w % 2 ^ nbits)) :: s.requests
    schedule := .host :: s.schedule }

end Sys2Proof.Machine
end

