-- ==== Sys2Proof/Safety.lean ====
section
/-! DEFINITION. What a run is held to: the machine invariant `State.Inv`, the accuracy law of the ROM, and what a
command may change, in the terms the statements use. -/

namespace Sys2Proof.Machine

/-- What holds of every state a run reaches, whatever the parameters, the host and the schedule do. -/
structure State.Inv (s : State) : Prop where
  /-- The parameters are legal (`00_scope.md` R5). -/
  cfg : s.cfg.wf = true
  /-- The memory has its canonical form. -/
  memSorted : Memory.wf s.mem
  /-- Every byte that holds a value is one of REAL, IMAG or MAGB (`20_memory.md` R62). -/
  memInBuffers : ∀ c ∈ s.mem, target s.cfg (c.1 / 8 * 8) = .buffer
  /-- An element holds a value as a whole or not at all (`10_state.md` R35, `20_memory.md` R65). -/
  memWhole : ∀ a, (Memory.readByte s.mem a).isSome = (Memory.readByte s.mem (a / 8 * 8)).isSome
  /-- BUSY = 1 exactly when a command is pending (R30). -/
  busyIffPending : s.status.busy = s.pending.isSome
  /-- DONE is 0 while a command is pending (R31). -/
  doneWhenIdle : s.status.busy = true → s.status.done = false
  /-- ERRCODE is 0 exactly when ERR = 0 (R25, R32). -/
  errcodeIffErr : s.status.err = true ↔ s.status.errcode ≠ .none
  /-- SIZE is 0, or a valid size and its logarithm (R27). -/
  sizeValid : (s.size.n = 0 ∧ s.size.log2n = 0) ∨
    (validSize s.cfg s.size.n = true ∧ s.size.log2n = Nat.log2 s.size.n)
  /-- CUR_OP is the pending command's opcode (R25, R40). -/
  pendingOp : ∀ i, s.pending = some i → s.status.curOp = i.opcode
  /-- A pending command has passed its checks (`40_control.md` R110). -/
  pendingChecked : ∀ i, s.pending = some i → s.operandError i = none
  /-- While rst is asserted the block is in the reset state (`70_reset_and_hazards.md` R210). -/
  resetHeld : s.rst = true → s.doReset = s

/-- The accuracy law of TWIDDLE_ROM (`10_state.md` R37): every entry is finite and within 2^-50 of the exact cosine or
sine of 2πq/N_MAX. -/
def AccurateRom (c : Config) : Prop :=
  ∀ q : Nat, q < c.nMax / 2 →
    (∃ neg u, (c.romc[q]?).map f64 = some (.fin neg u) ∧
      |((signedUnits neg u : ℤ) : ℝ) / 2 ^ 1074 - Real.cos (2 * Real.pi * q / c.nMax)| ≤ 1 / 2 ^ 50) ∧
    (∃ neg u, (c.roms[q]?).map f64 = some (.fin neg u) ∧
      |((signedUnits neg u : ℤ) : ℝ) / 2 ^ 1074 - Real.sin (2 * Real.pi * q / c.nMax)| ≤ 1 / 2 ^ 50)

/-- Everything of the state but the buffers, the pending command, BUSY and DONE, and the counter of free values is as
before: what the completion of a data command leaves alone (`40_control.md` R111). -/
structure SameButData (s t : State) : Prop where
  cfg : t.cfg = s.cfg
  err : t.status.err = s.status.err
  errcode : t.status.errcode = s.status.errcode
  curOp : t.status.curOp = s.status.curOp
  ctrl : t.ctrl = s.ctrl
  rst : t.rst = s.rst
  requests : t.requests = s.requests
  responses : t.responses = s.responses
  schedule : t.schedule = s.schedule
  turn : t.turn = s.turn
  delay : t.delay = s.delay

/-- The command has completed (R111): nothing is pending, BUSY = 0, DONE = 1. -/
structure Completed (t : State) : Prop where
  pending : t.pending = none
  busy : t.status.busy = false
  done : t.status.done = true

/-- The byte addresses of the n elements from an aperture offset. -/
def inWindow (off n a : Nat) : Prop := off ≤ a ∧ a < off + 8 * n

/-- A safe run answers a next state. -/
def answersNext (o : Host.Outcome State Fault Refusal) : Prop := ∃ t, o = .next t

/-- The next step is the host's and takes this transaction: rst is not asserted, the schedule names the host, or names
nobody while no command is pending, and the transaction is its oldest. -/
structure State.serves (s : State) (r : Request) : Prop where
  rst : s.rst = false
  schedule : s.schedule.head? = some .host ∨ (s.schedule = [] ∧ s.pending = none)
  request : s.requests.head? = some r

/-- The transaction has been answered and nothing else has changed. -/
def State.answered (s : State) (r : Response) : State :=
  { s with schedule := s.schedule.tail, requests := s.requests.tail, responses := s.responses ++ [r] }

/-- The next step is the engine's: the schedule names it, or names nobody and no transaction waits or the delay of the
pending command is used up (log 18). -/
def State.engineMoves (s : State) : Prop :=
  s.schedule.head? = some .engine ∨ (s.schedule = [] ∧ (s.requests = [] ∨ s.delay = 0))

/-- What reaches the machine from outside between two steps: further transactions and further entries of the
schedule. -/
def State.arrive (s : State) (requests : List Request) (ticks : List Tick) : State :=
  { s with requests := s.requests ++ requests, schedule := s.schedule ++ ticks }

/-- An endless run of a machine that keeps being fed: before step k the k-th requests and ticks arrive. -/
def FedRun (requests : Nat → List Request) (ticks : Nat → List Tick) (run : Nat → State) : Prop :=
  ∀ k, step ((run k).arrive (requests k) (ticks k)) = .next (run (k + 1))

/-- The fairness assumption on the engine (`70_reset_and_hazards.md` R222): its step is taken again and again. -/
def FairRun (requests : Nat → List Request) (ticks : Nat → List Tick) (run : Nat → State) : Prop :=
  ∀ k, ∃ j, k ≤ j ∧ ((run j).arrive (requests j) (ticks j)).engineMoves

/-- A byte-addressed host sees this word at an offset: its lane b at BASE + off + b (`20_memory.md` R66). -/
def State.shows (s : State) (off : Nat) (w : Word) : Prop :=
  ∀ b, b < 8 → s.hostByte (busAddress s.cfg off + b) = some (w.extractLsb' (8 * b) 8)

/-- The number of R8 that a finite binary64 value stands for. -/
def exactValue (neg : Bool) (units : Nat) : ℚ := (signedUnits neg units : ℚ) / 2 ^ 1074

/-- The host's next transaction is the CMD write of w (`10_state.md` R28). -/
abbrev State.presents (s : State) (w : Word) : Prop := s.serves (.write 0x20#23 8 w)

/-- The next step takes the reset state: rst is asserted, or becomes so (`70_reset_and_hazards.md` R210). -/
def State.resets (s : State) : Prop := s.rst = true ∨ s.schedule.head? = some (.rst true)

/-- The commands whose LEN is checked against SIZE.N (`40_control.md` R110). -/
def checksLength : Instr → Bool
  | .nop => false
  | .config _ => false
  | .bitrev _ => true
  | .bfly _ => true
  | .fft _ => true
  | .mag _ => true
  | .analyze _ => false

/-- An offset in a buffer window, aligned and not past its last element (`20_memory.md` R62). -/
def bufferOffset (c : Config) (off : Nat) : Prop :=
  off % 8 = 0 ∧
    ((0x100000 ≤ off ∧ off < 0x100000 + 8 * c.nMax) ∨ (0x200000 ≤ off ∧ off < 0x200000 + 8 * c.nMax) ∨
      (0x300000 ≤ off ∧ off < 0x300000 + 8 * (c.nMax / 2)))

/-- An offset nothing is mapped at (`60_exceptions.md` R184): the gap after the registers, the offsets past the last
element of a window, and 0x60_0000 and above. -/
def unmappedOffset (c : Config) (off : Nat) : Prop :=
  (0x28 ≤ off ∧ off < 0x100000) ∨
    (0x100000 + 8 * c.nMax ≤ off ∧ off < 0x200000) ∨ (0x200000 + 8 * c.nMax ≤ off ∧ off < 0x300000) ∨
    (0x300000 + 8 * (c.nMax / 2) ≤ off ∧ off < 0x400000) ∨ (0x400000 + 8 * (c.nMax / 2) ≤ off ∧ off < 0x500000) ∨
    (0x500000 + 8 * (c.nMax / 2) ≤ off ∧ off < 0x600000) ∨ 0x600000 ≤ off

/-- A number of units with a significand of at most 53 bits. -/
def Representable (u : Nat) : Prop := ∃ k x, k < 2 ^ 53 ∧ u = k * 2 ^ x

/-! The source's own procedure for the permutation, the "classic incremental bit-reversed counter"
(`41_transform.md` R133), as the rule writes it. The block does not run it; a statement compares it with `permute`. -/

/-- while k <= j: j <- j − k; k <- k / 2. The fuel bounds the loop. -/
def counterDescend : Nat → Nat → Nat → Nat × Nat
  | 0, k, j => (k, j)
  | fuel + 1, k, j => if k ≤ j then counterDescend fuel (k / 2) (j - k) else (k, j)

/-- One round for index i: swap if i < j, then advance j. -/
def counterRound {α : Type} (n : Nat) (xj : List α × Nat) (i : Nat) : List α × Nat :=
  let (x, j) := xj
  let y := if i < j then
      match x[i]?, x[j]? with
      | some a, some b => (x.set i b).set j a
      | _, _ => x
    else x
  let (k, j') := counterDescend n (n / 2) j
  (y, j' + k)

/-- The procedure: j <- 0, then i = 0 .. n−2. -/
def counterPermute {α : Type} (n : Nat) (x : List α) : List α :=
  ((List.range (n - 1)).foldl (counterRound n) (x, 0)).1

end Sys2Proof.Machine
end

