-- ==== Sys2Proof/Certificates/Slice0/Obligations.lean ====
section
/-! DEFINITION. The statements for the provers, each with the rule of spec/ it comes from. -/

open Sys2Proof Sys2Proof.Machine

/-! ## Encoding -/

/-- `30_encoding.md` R90, R94, R96: no bit of an encoding is dropped. -/
def Obligations.DecodeOfEncodeIsTheCommand : Prop :=
  ∀ i : Instr, i.wellFormed = true → decode (encode i) = .ok i

/-- `30_encoding.md` R90, R92: a legal word is the encoding of the command it decodes to, whose LEN fits its field. -/
def Obligations.EncodeOfDecodeIsTheWord : Prop :=
  ∀ (w : Word) (i : Instr), decode w = .ok i → encode i = w ∧ i.wellFormed = true

/-- `30_encoding.md` R92: a word selects the row of the table whose match it is under the row's mask, and LEN is its
high half. -/
def Obligations.DecodeSelectsTheTableRow : Prop :=
  ∀ w : Word,
    (decode w = .ok .nop ↔ w &&& 0xFFFFFFFFFFFFFFFF#64 = 0x0000000000000000#64) ∧
    ∀ n : Nat,
      (decode w = .ok (.config n) ↔ w &&& 0x00000000FFFFFFFF#64 = 0x0000000000000001#64 ∧ n = w.toNat / 2 ^ 32) ∧
      (decode w = .ok (.bitrev n) ↔ w &&& 0x00000000FFFFFFFF#64 = 0x0000000000000002#64 ∧ n = w.toNat / 2 ^ 32) ∧
      (decode w = .ok (.bfly n) ↔ w &&& 0x00000000FFFFFFFF#64 = 0x0000000000000003#64 ∧ n = w.toNat / 2 ^ 32) ∧
      (decode w = .ok (.fft n) ↔ w &&& 0x00000000FFFFFFFF#64 = 0x0000000000000004#64 ∧ n = w.toNat / 2 ^ 32) ∧
      (decode w = .ok (.mag n) ↔ w &&& 0x00000000FFFFFFFF#64 = 0x0000000000000005#64 ∧ n = w.toNat / 2 ^ 32) ∧
      (decode w = .ok (.analyze n) ↔ w &&& 0x00000000FFFFFFFF#64 = 0x0000000000000006#64 ∧ n = w.toNat / 2 ^ 32)

/-- `30_encoding.md` R93: the illegal words are exactly these, and a CMD write of one is answered OKAY and rejected
with ILLEGAL_COMMAND, or BUSY if the block is busy; nothing but ERR and ERRCODE changes in the block. -/
def Obligations.IllegalWordsAreRejected : Prop :=
  ∀ w : Word,
    ((∃ e, decode w = .error e) ↔
      (7 ≤ (w.extractLsb' 0 8).toNat ∨ w.extractLsb' 8 24 ≠ 0#24 ∨
        (w.extractLsb' 0 8 = 0#8 ∧ w.extractLsb' 32 32 ≠ 0#32))) ∧
    ∀ s : State, s.presents w → (∃ e, decode w = .error e) →
      step s = .next { s.answered writeOkay with
        turn := .host
        status := { s.status with err := true, errcode := if s.status.busy then .busy else .illegalCommand } }

/-- `30_encoding.md` R98: the written-out words, each the word of its command, and what it decodes to. -/
def Obligations.WrittenOutWordsDecode : Prop :=
  encode .nop = 0x0000000000000000#64 ∧ encode (.config 4) = 0x0000000400000001#64 ∧
  encode (.config 100) = 0x0000006400000001#64 ∧ encode (.fft 64) = 0x0000004000000004#64 ∧
  encode (.mag 8) = 0x0000000800000005#64 ∧ encode (.analyze 64) = 0x0000004000000006#64 ∧
  encode (.analyze 4096) = 0x0000100000000006#64 ∧
  decode 0x0000000000000000#64 = .ok .nop ∧
  decode 0x0000000400000001#64 = .ok (.config 4) ∧
  decode 0x0000006400000001#64 = .ok (.config 100) ∧
  decode 0x0000004000000004#64 = .ok (.fft 64) ∧
  decode 0x0000000800000005#64 = .ok (.mag 8) ∧
  decode 0x0000004000000006#64 = .ok (.analyze 64) ∧
  decode 0x0000100000000006#64 = .ok (.analyze 4096) ∧
  decode 0x0000000000000007#64 = .error .reservedOpcode ∧
  decode 0x0000000400000104#64 = .error .reservedBits ∧
  decode 0x0000000100000000#64 = .error .nopWithLength

/-! ## A step runs the decoded command -/

/-- `20_memory.md` R68, `40_control.md` R110: a CMD write of a legal word is answered OKAY and runs its command in the
host's turn. -/
def Obligations.CmdWriteRunsTheDecodedCommand : Prop :=
  ∀ (s : State) (w : Word) (i : Instr), s.presents w → decode w = .ok i →
    step s = exec i { s.answered writeOkay with turn := .host }

/-- `40_control.md` R111: when the engine moves (`State.engineMoves`: the schedule names it, or names nobody and no
transaction waits or the pending command's delay is used up, log 2, log 18), a pending command is run in the engine's
turn. -/
def Obligations.EngineStepRunsThePendingCommand : Prop :=
  ∀ (s : State) (i : Instr), s.rst = false → s.pending = some i →
    s.engineMoves →
    step s = exec i { s with schedule := s.schedule.tail, turn := .engine }

/-! ## Issue -/

/-- `00_scope.md` R6. -/
def Obligations.ValidSizesAreThePowersOfTwo : Prop :=
  ∀ (c : Config) (n : Nat), validSize c n = true ↔ ∃ l, 1 ≤ l ∧ l ≤ c.log2nMax ∧ n = 2 ^ l

/-- `40_control.md` R110: a command that passes its checks is accepted; acceptance writes pending, BUSY, DONE and CUR_OP
and nothing else of the block. The model draws the command's delay there (log 18). -/
def Obligations.CheckedCommandIsAccepted : Prop :=
  ∀ (i : Instr) (s : State), s.turn = .host → s.status.busy = false →
    (i = .nop ∨ (validSize s.cfg i.len = true ∧ (checksLength i = true → i.len = s.size.n))) →
    exec i s = .next { s with
      pending := some i
      status := { s.status with busy := true, done := false, curOp := i.opcode }
      delay := Config.completionDelay s.draws
      draws := s.draws + 1 }

/-- `60_exceptions.md` R183, R185: the first check that fails, in the order BUSY, ILLEGAL_COMMAND, INVALID_SIZE,
NOT_CONFIGURED, LENGTH_MISMATCH, is the one reported; a rejection writes ERR and ERRCODE and nothing else, and the CMD
write is answered OKAY. -/
def Obligations.RejectionReportsTheFirstFailedCheck : Prop :=
  ∀ (s : State) (w : Word), s.presents w →
    let rejectedWith (e : ErrCode) : Prop :=
      step s = .next { s.answered writeOkay with
        turn := .host, status := { s.status with err := true, errcode := e } }
    (s.status.busy = true → rejectedWith .busy) ∧
    (s.status.busy = false → (∃ e, decode w = .error e) → rejectedWith .illegalCommand) ∧
    ∀ i : Instr, s.status.busy = false → decode w = .ok i → i ≠ .nop →
      (validSize s.cfg i.len = false → rejectedWith .invalidSize) ∧
      (validSize s.cfg i.len = true → checksLength i = true → s.size.n = 0 → rejectedWith .notConfigured) ∧
      (validSize s.cfg i.len = true → checksLength i = true → s.size.n ≠ 0 → i.len ≠ s.size.n →
        rejectedWith .lengthMismatch)

/-- `60_exceptions.md` R181: the numbers of the codes. -/
def Obligations.ErrorCodesHaveTheirNumbers : Prop :=
  ErrCode.none.code = 0#4 ∧ ErrCode.invalidSize.code = 1#4 ∧ ErrCode.lengthMismatch.code = 2#4 ∧
  ErrCode.notConfigured.code = 3#4 ∧ ErrCode.busy.code = 4#4 ∧ ErrCode.illegalCommand.code = 5#4 ∧
  ∀ e : ErrCode, e.code.toNat < 6

/-! ## Completion -/

/-- `40_control.md` R111, R112: NOP's completion changes pending, BUSY and DONE and nothing else. -/
def Obligations.NopCompletesWithNoOtherEffect : Prop :=
  ∀ s : State, s.turn = .engine →
    exec .nop s = .next { s with pending := none, status := { s.status with busy := false, done := true } }

/-- `40_control.md` R111, R113: CONFIG's completion writes SIZE, pending, BUSY and DONE and nothing else. -/
def Obligations.ConfigCompletesBySettingSize : Prop :=
  ∀ (n : Nat) (s : State), s.turn = .engine →
    exec (.config n) s = .next { s with
      size := { n := n, log2n := Nat.log2 n }
      pending := none
      status := { s.status with busy := false, done := true } }

/-- `41_transform.md` R134, `40_control.md` R111: BITREV moves element i of REAL and IMAG to index rev_L(i), whether it
holds a value or not, and changes no other byte. -/
def Obligations.BitrevMovesElementsToReversedIndices : Prop :=
  ∀ (n : Nat) (s : State), s.turn = .engine → s.cfg.log2nMax ≤ 17 → validSize s.cfg n = true →
    ∃ t, exec (.bitrev n) s = .next t ∧ Completed t ∧ SameButData s t ∧ t.size = s.size ∧ t.draws = s.draws ∧
      (∀ i, i < n →
        Memory.readWord t.mem (realBase + 8 * rev (Nat.log2 n) i) = Memory.readWord s.mem (realBase + 8 * i) ∧
        Memory.readWord t.mem (imagBase + 8 * rev (Nat.log2 n) i) = Memory.readWord s.mem (imagBase + 8 * i)) ∧
      (∀ a, ¬ inWindow realBase n a → ¬ inWindow imagBase n a → Memory.readByte t.mem a = Memory.readByte s.mem a)

/-- `41_transform.md` R136, R137, `40_control.md` R111: BFLY stores what the butterfly network, with the twiddles of its
size (R130), makes of the values of REAL[0 .. n) and IMAG[0 .. n); a result that is NaN gets a quiet NaN of its own draw
(R5, log 6), a result that holds no value leaves its element without one (`70_reset_and_hazards.md` R218, in log 8's
reading); no other byte changes. -/
def Obligations.BflyStoresTheNetworksResults : Prop :=
  ∀ (n : Nat) (s : State), s.turn = .engine → s.cfg.log2nMax ≤ 17 → validSize s.cfg n = true →
    ∃ t, exec (.bfly n) s = .next t ∧ Completed t ∧ SameButData s t ∧ t.size = s.size ∧ t.draws = s.draws + 2 * n ∧
      (∀ i, i < n → ∃ re im : Element,
        (network (fun k => butterfly (twiddle s.cfg n k)) n
          ((List.range n).map (fun j => ((Memory.readWord s.mem (realBase + 8 * j)).map f64,
            (Memory.readWord s.mem (imagBase + 8 * j)).map f64))))[i]? = some (re, im) ∧
        Memory.readWord t.mem (realBase + 8 * i) =
          re.map (bits64 (quietNan (Config.nanDraw (s.draws + i)))) ∧
        Memory.readWord t.mem (imagBase + 8 * i) =
          im.map (bits64 (quietNan (Config.nanDraw (s.draws + n + i))))) ∧
      (∀ a, ¬ inWindow realBase n a → ¬ inWindow imagBase n a → Memory.readByte t.mem a = Memory.readByte s.mem a)

/-- `41_transform.md` R138, `70_reset_and_hazards.md` R220: FFT is BITREV then BFLY, bit for bit. -/
def Obligations.FftIsBitrevThenBfly : Prop :=
  ∀ (n : Nat) (s : State), s.turn = .engine →
    ∃ t u, exec (.bitrev n) s = .next t ∧ exec (.bfly n) t = .next u ∧ exec (.fft n) s = .next u

/-- `41_transform.md` R138, `10_state.md` R33: what FFT leaves unchanged. -/
def Obligations.FftFrame : Prop :=
  ∀ (n : Nat) (s : State), s.turn = .engine → s.cfg.log2nMax ≤ 17 → validSize s.cfg n = true →
    ∃ t, exec (.fft n) s = .next t ∧ Completed t ∧ SameButData s t ∧ t.size = s.size ∧ t.draws = s.draws + 2 * n ∧
      (∀ a, ¬ inWindow realBase n a → ¬ inWindow imagBase n a → Memory.readByte t.mem a = Memory.readByte s.mem a)

/-- `42_spectrum.md` R160, R161: MAG stores the magnitude of each of the first n/2 bins, none where a part of the bin
holds no value (`70_reset_and_hazards.md` R218, in log 8's reading), and changes no other byte. -/
def Obligations.MagStoresTheMagnitudes : Prop :=
  ∀ (n : Nat) (s : State), s.turn = .engine → s.cfg.log2nMax ≤ 17 → validSize s.cfg n = true →
    ∃ t, exec (.mag n) s = .next t ∧ Completed t ∧ SameButData s t ∧ t.size = s.size ∧ t.draws = s.draws + n / 2 ∧
      (∀ i, i < n / 2 →
        (∀ re im : Word, Memory.readWord s.mem (realBase + 8 * i) = some re →
          Memory.readWord s.mem (imagBase + 8 * i) = some im →
          Memory.readWord t.mem (magBase + 8 * i) =
            some (bits64 (quietNan (Config.nanDraw (s.draws + i)))
              (let r := fsqrt (fadd (fmul (f64 re) (f64 re)) (fmul (f64 im) (f64 im)))
               if i = 0 then fdiv r (ofNat64 n) else fdiv r (ofNat64 (n / 2))))) ∧
        (Memory.readWord s.mem (realBase + 8 * i) = none ∨ Memory.readWord s.mem (imagBase + 8 * i) = none →
          Memory.readWord t.mem (magBase + 8 * i) = none)) ∧
      (∀ a, ¬ inWindow magBase (n / 2) a → Memory.readByte t.mem a = Memory.readByte s.mem a)

/-- `42_spectrum.md` R162: ANALYZE is CONFIG, IMAG[0 .. n) <- +0.0 one element after another, FFT and MAG. -/
def Obligations.AnalyzeIsConfigZeroFftMag : Prop :=
  ∀ (n : Nat) (s : State), s.turn = .engine → s.cfg.log2nMax ≤ 17 → validSize s.cfg n = true →
    ∃ t u v, exec (.config n) s = .next t ∧
      exec (.fft n) { t with
        mem := (List.range n).foldl (fun m i => Memory.writeWord m (imagBase + 8 * i) 0x0000000000000000#64) t.mem } =
        .next u ∧
      exec (.mag n) u = .next v ∧ exec (.analyze n) s = .next v

/-- `42_spectrum.md` R162, `10_state.md` R33, R34: what ANALYZE writes besides the buffers' elements below n and MAGB's
below n/2, and what it leaves unchanged. -/
def Obligations.AnalyzeFrame : Prop :=
  ∀ (n : Nat) (s : State), s.turn = .engine → s.cfg.log2nMax ≤ 17 → validSize s.cfg n = true →
    ∃ t, exec (.analyze n) s = .next t ∧ Completed t ∧ SameButData s t ∧
      t.size = { n := n, log2n := Nat.log2 n } ∧ t.draws = s.draws + 2 * n + n / 2 ∧
      (∀ a, ¬ inWindow realBase n a → ¬ inWindow imagBase n a → ¬ inWindow magBase (n / 2) a →
        Memory.readByte t.mem a = Memory.readByte s.mem a)

/-! ## The transform -/

/-- `41_transform.md` R132. -/
def Obligations.RevReadsTheBitsInReverse : Prop :=
  (∀ l i b : Nat, i < 2 ^ l → b < l → (rev l i).testBit b = i.testBit (l - 1 - b)) ∧
  (∀ l i : Nat, i < 2 ^ l → rev l i < 2 ^ l ∧ rev l (rev l i) = i) ∧
  (List.range 8).map (rev 3) = [0, 4, 2, 6, 1, 5, 3, 7]

/-- `41_transform.md` R133, first sentence: Y[rev_L(i)] = X[i], for the contents of any element type. -/
def Obligations.PermuteMovesToTheReversedIndex : Prop :=
  ∀ (α : Type) (l : Nat) (x : List α), x.length = 2 ^ l →
    (permute l x).length = 2 ^ l ∧ ∀ i, i < 2 ^ l → (permute l x)[rev l i]? = x[i]?

/-- `41_transform.md` R133: the source's incremental bit-reversed counter computes the same permutation, for every
power of two. -/
def Obligations.IncrementalCounterComputesThePermutation : Prop :=
  ∀ (α : Type) (l : Nat) (x : List α), 1 ≤ l → x.length = 2 ^ l → counterPermute (2 ^ l) x = permute l x

/-- `41_transform.md` R135: the butterfly on operands that hold values; both outputs use the old lower element. -/
def Obligations.ButterflyRoundsEachOperationOnce : Prop :=
  ∀ ar ai br bi c s : Binary64,
    butterfly (some c, some s) (some ar, some ai) (some br, some bi) =
      ((some (fadd ar (fadd (fmul br c) (fmul bi s))), some (fadd ai (fsub (fmul bi c) (fmul br s)))),
       (some (fsub ar (fadd (fmul br c) (fmul bi s))), some (fsub ai (fsub (fmul bi c) (fmul br s)))))

/-- `70_reset_and_hazards.md` R218 for one butterfly: an output holds no value exactly where one of the operands its
formula names holds none. -/
def Obligations.ButterflyKeepsMissingValuesMissing : Prop :=
  ∀ (w a b : Sample),
    let upperMissing := w.1 = none ∨ w.2 = none ∨ b.1 = none ∨ b.2 = none
    ((butterfly w a b).1.1 = none ↔ a.1 = none ∨ upperMissing) ∧
    ((butterfly w a b).1.2 = none ↔ a.2 = none ∨ upperMissing) ∧
    ((butterfly w a b).2.1 = none ↔ a.1 = none ∨ upperMissing) ∧
    ((butterfly w a b).2.2 = none ↔ a.2 = none ∨ upperMissing)

/-- `41_transform.md` R136: one stage applies the butterfly with twiddle index j·(N/m) to the pair i+j, i+j+m/2 of its
input, for every block and every offset; the network runs the stages m = 2, 4, …, N in this order, each on the contents
the one before it left. -/
def Obligations.StageAppliesEachButterflyToItsPair : Prop :=
  (∀ (α : Type) (bf : Nat → α → α → α × α) (l u : Nat) (x : List α),
    1 ≤ u → u ≤ l → x.length = 2 ^ l →
    ∀ block j, block < 2 ^ l / 2 ^ u → j < 2 ^ u / 2 →
      ∃ a b, x[block * 2 ^ u + j]? = some a ∧ x[block * 2 ^ u + j + 2 ^ u / 2]? = some b ∧
        (stage bf (2 ^ l) x (2 ^ u))[block * 2 ^ u + j]? = some (bf (j * (2 ^ l / 2 ^ u)) a b).1 ∧
        (stage bf (2 ^ l) x (2 ^ u))[block * 2 ^ u + j + 2 ^ u / 2]? = some (bf (j * (2 ^ l / 2 ^ u)) a b).2) ∧
  ∀ (α : Type) (bf : Nat → α → α → α × α) (l : Nat) (x : List α),
    ∃ xs : Nat → List α, xs 0 = x ∧ (∀ u, u < l → xs (u + 1) = stage bf (2 ^ l) (xs u) (2 ^ (u + 1))) ∧
      network bf (2 ^ l) x = xs l

/-- `41_transform.md` R136: a stage's result does not depend on the order of its butterflies. -/
def Obligations.StageResultIsIndependentOfOrder : Prop :=
  ∀ (α : Type) (bf : Nat → α → α → α × α) (l u : Nat) (x : List α) (order : List (Nat × Nat)),
    1 ≤ u → u ≤ l → order.Perm (stagePairs (2 ^ l) (2 ^ u)) →
    order.foldl (butterflyAt bf (2 ^ u / 2)) x = stage bf (2 ^ l) x (2 ^ u)

/-- `41_transform.md` R139: the same permutation and network over the complex numbers, with exact twiddles, compute the
unnormalized discrete Fourier transform in natural order. -/
def Obligations.ExactNetworkComputesTheDft : Prop :=
  ∀ (l : Nat) (x : List ℂ), 1 ≤ l → x.length = 2 ^ l →
    ∀ f : ℕ, f < 2 ^ l →
      (network (fun k a b =>
          let t := b * Complex.exp (-2 * Real.pi * Complex.I * k / (2 ^ l : ℕ))
          (a + t, a - t)) (2 ^ l) (permute l x))[f]? =
        some (∑ n ∈ Finset.range (2 ^ l),
          x.getD n 0 * Complex.exp (-2 * Real.pi * Complex.I * f * n / (2 ^ l : ℕ)))

/-- `41_transform.md` R130: the twiddle of size N and index k is the ROM pair at k·(N_MAX/N), the stride is exact and
the entry is in the ROM. -/
def Obligations.TwiddleViewIsStrided : Prop :=
  ∀ (c : Config) (n k : Nat), c.wf = true → validSize c n = true → k < n / 2 →
    c.nMax / n * n = c.nMax ∧ k * (c.nMax / n) < c.nMax / 2 ∧
    ∃ cw sw : Word, c.romc[k * (c.nMax / n)]? = some cw ∧ c.roms[k * (c.nMax / n)]? = some sw ∧
      twiddle c n k = (some (f64 cw), some (f64 sw))

/-- `10_state.md` R36, R37 for the reference configuration (log 4, log 11): its parameters are legal and its ROM meets
the accuracy law. -/
def Obligations.ReferenceRomMeetsTheAccuracyLaw : Prop :=
  referenceConfig.wf = true ∧ AccurateRom referenceConfig

/-! ## Arithmetic -/

/-- `00_scope.md` R8: the pattern of the value a pattern encodes is that pattern, NaNs aside. -/
def Obligations.PatternOfValueIsThePattern : Prop :=
  ∀ nanPattern w : Word, f64 w ≠ .nan → bits64 nanPattern (f64 w) = w

/-- `00_scope.md` R5 (NAN_RESULT): whatever is drawn, a NaN result's pattern is a quiet NaN. -/
def Obligations.NanResultIsAQuietNan : Prop :=
  ∀ draw : Word, f64 (quietNan draw) = .nan ∧ (quietNan draw).getLsbD 51 = true

/-- `00_scope.md` R9, each operation "rounded once to nearest with ties to even": the rounding of an exact magnitude p/q
is the nearest number with a 53-bit significand, the one with the even significand where two are as near; `rounded` has
that number where it is in range; and fadd, fsub, fmul and fdiv of finite operands are the rounding of their exact
result, whichever fraction p/q its magnitude is written as, with its sign. N and N/2 are converted exactly
(`42_spectrum.md` R160). -/
def Obligations.RoundingIsToNearestTiesToEven : Prop :=
  (∀ p q : Nat, 0 < q →
    Representable (nearestUnits p q) ∧
    ∀ u : Nat, Representable u →
      |((nearestUnits p q * q : ℕ) : ℤ) - ((p * unitsOfOne : ℕ) : ℤ)| ≤
        |((u * q : ℕ) : ℤ) - ((p * unitsOfOne : ℕ) : ℤ)| ∧
      (u ≠ nearestUnits p q →
        |((nearestUnits p q * q : ℕ) : ℤ) - ((p * unitsOfOne : ℕ) : ℤ)| =
          |((u * q : ℕ) : ℤ) - ((p * unitsOfOne : ℕ) : ℤ)| →
        nearestUnits p q / 2 ^ excessBits (nearestUnits p q) % 2 = 0)) ∧
  (∀ (neg : Bool) (p q : Nat), nearestUnits p q < overflowUnits → rounded neg p q = .fin neg (nearestUnits p q)) ∧
  (∀ l : Nat, l ≤ 17 → ofNat64 (2 ^ l) = .fin false (2 ^ l * unitsOfOne)) ∧
  ∀ (s t : Bool) (u v p q : Nat), 0 < q →
    let a := exactValue s u
    let b := exactValue t v
    (a + b ≠ 0 → (p : ℚ) / q = |a + b| → fadd (.fin s u) (.fin t v) = rounded (decide (a + b < 0)) p q) ∧
    (a + b = 0 → fadd (.fin s u) (.fin t v) = .fin (s && t) 0) ∧
    (a - b ≠ 0 → (p : ℚ) / q = |a - b| → fsub (.fin s u) (.fin t v) = rounded (decide (a - b < 0)) p q) ∧
    (a - b = 0 → fsub (.fin s u) (.fin t v) = .fin (s && !t) 0) ∧
    ((p : ℚ) / q = |a * b| → fmul (.fin s u) (.fin t v) = rounded (s ^^ t) p q) ∧
    (v ≠ 0 → (p : ℚ) / q = |a / b| → fdiv (.fin s u) (.fin t v) = rounded (s ^^ t) p q)

/-- `00_scope.md` R9: fsqrt of a positive number is the number nearest to its exact square root. In units of 2^-1074
the root of u units is √(u · 2^1074). -/
def Obligations.SquareRootIsNearest : Prop :=
  ∀ u : Nat, 0 < u → u < overflowUnits →
    ∃ r : Nat, fsqrt (.fin false u) = .fin false r ∧ Representable r ∧
      ∀ v : Nat, Representable v →
        |(r : ℝ) - Real.sqrt ((u : ℝ) * 2 ^ 1074)| ≤ |(v : ℝ) - Real.sqrt ((u : ℝ) * 2 ^ 1074)|

/-- `00_scope.md` R9: the default results it names, and that every operation on a NaN is NaN. -/
def Obligations.DefaultResultsOfSpecialOperands : Prop :=
  (∀ s, fsub (.inf s) (.inf s) = .nan) ∧ (∀ s t, fmul (.inf s) (.fin t 0) = .nan ∧ fmul (.fin t 0) (.inf s) = .nan) ∧
  (∀ u, 0 < u → fsqrt (.fin true u) = .nan) ∧ fsqrt (.inf true) = .nan ∧
  fadd (.fin true 0) (.fin false 0) = .fin false 0 ∧
  (∀ neg p q, overflowUnits ≤ nearestUnits p q → rounded neg p q = .inf neg) ∧
  (∀ x, fadd .nan x = .nan ∧ fadd x .nan = .nan ∧ fsub .nan x = .nan ∧ fsub x .nan = .nan ∧ fmul .nan x = .nan ∧
    fmul x .nan = .nan ∧ fdiv .nan x = .nan ∧ fdiv x .nan = .nan ∧ fsqrt .nan = .nan)

/-- `42_spectrum.md` R164, first property: a magnitude is +0.0, positive, +∞ or NaN, never negative and never −0.0. -/
def Obligations.MagnitudeIsNeverNegative : Prop :=
  ∀ (n i : Nat) (re im : Binary64),
    magnitude n i re im = .nan ∨ magnitude n i re im = .inf false ∨ ∃ u, magnitude n i re im = .fin false u

/-! ## Host transactions -/

/-- `10_state.md` R24: ID's fields, and that a write to ID is a bus error. The bytes of the word are at their addresses
(`20_memory.md` R66). -/
def Obligations.IdReadsItsFieldsAndRefusesWrites : Prop :=
  (∀ s : State, s.serves (.read 0x00#23 8) →
    ∃ w : Word, step s = .next (s.answered (readOkay w)) ∧
      w.extractLsb' 0 32 = 0x46465432#32 ∧ w.extractLsb' 32 8 = 0x01#8 ∧
      w.extractLsb' 40 8 = BitVec.ofNat 8 s.cfg.log2nMax ∧ w.extractLsb' 48 16 = 0#16 ∧
      (s.cfg.log2nMax = 12 → w = 0x00000C0146465432#64) ∧ s.shows 0x00 w) ∧
  (∀ (s : State) (v : Word), s.serves (.write 0x00#23 8 v) → step s = .next (s.answered writeError))

/-- `10_state.md` R25: STATUS's fields at their bits, its reserved bits 0, and what a write to it does, while BUSY = 1
as well. The bytes of the word are at their addresses (`20_memory.md` R66). -/
def Obligations.StatusReadsItsFieldsAndClearsOnOnes : Prop :=
  (∀ s : State, s.serves (.read 0x08#23 8) →
    ∃ w : Word, step s = .next (s.answered (readOkay w)) ∧
      w.getLsbD 0 = s.status.busy ∧ w.getLsbD 1 = s.status.done ∧ w.getLsbD 2 = s.status.err ∧
      w.extractLsb' 3 5 = 0#5 ∧ w.extractLsb' 8 4 = s.status.errcode.code ∧ w.extractLsb' 12 4 = 0#4 ∧
      w.extractLsb' 16 8 = s.status.curOp ∧ w.extractLsb' 24 40 = 0#40 ∧ s.shows 0x08 w) ∧
  (∀ (s : State) (v : Word), s.serves (.write 0x08#23 8 v) →
    step s = .next { s.answered writeOkay with
      status := { s.status with
        done := if v.getLsbD 1 then false else s.status.done
        err := if v.getLsbD 2 then false else s.status.err
        errcode := if v.getLsbD 2 then .none else s.status.errcode } })

/-- `10_state.md` R26: CTRL's two enables are written and read at bits 0 and 1, the other bits are ignored and read 0,
and a write is allowed while BUSY = 1. The bytes of the word are at their addresses (`20_memory.md` R66). -/
def Obligations.CtrlHoldsItsTwoEnables : Prop :=
  (∀ (s : State) (v : Word), s.serves (.write 0x10#23 8 v) →
    step s = .next { s.answered writeOkay with ctrl := { ieDone := v.getLsbD 0, ieErr := v.getLsbD 1 } }) ∧
  (∀ s : State, s.serves (.read 0x10#23 8) →
    ∃ w : Word, step s = .next (s.answered (readOkay w)) ∧
      w.getLsbD 0 = s.ctrl.ieDone ∧ w.getLsbD 1 = s.ctrl.ieErr ∧ w.extractLsb' 2 62 = 0#62 ∧ s.shows 0x10 w) ∧
  (∀ c : Config, (State.resetOf c).ctrl = { ieDone := false, ieErr := false })

/-- `10_state.md` R27, R28: SIZE's fields at their bits and that a write to SIZE is a bus error; CMD reads 0 with no
effect, and a CMD write is answered OKAY whatever becomes of the command. The bytes of the two words are at their
addresses (`20_memory.md` R66). -/
def Obligations.SizeAndCmdAccesses : Prop :=
  (∀ s : State, s.serves (.read 0x18#23 8) →
    ∃ w : Word, step s = .next (s.answered (readOkay w)) ∧
      w.extractLsb' 0 32 = BitVec.ofNat 32 s.size.n ∧ w.extractLsb' 32 8 = BitVec.ofNat 8 s.size.log2n ∧
      w.extractLsb' 40 24 = 0#24 ∧ s.shows 0x18 w) ∧
  (∀ (s : State) (v : Word), s.serves (.write 0x18#23 8 v) → step s = .next (s.answered writeError)) ∧
  (∀ s : State, s.serves (.read 0x20#23 8) →
    step s = .next (s.answered (readOkay 0x0000000000000000#64)) ∧ s.shows 0x20 0x0000000000000000#64) ∧
  (∀ (s : State) (w : Word), s.presents w →
    ∃ t, step s = .next t ∧ t.responses = s.responses ++ [writeOkay] ∧ t.requests = s.requests.tail)

/-- `60_exceptions.md` R184: the transactions that are bus errors; each is answered ERROR, a read with data 0, and
changes nothing, so ERR and irq stay as they are. -/
def Obligations.BusErrorsChangeNothing : Prop :=
  ∀ (s : State) (off : BitVec 23) (width : Nat), s.cfg.log2nMax ≤ 17 →
    (s.serves (.read off width) →
      (width ≠ 8 ∨ off.toNat % 8 ≠ 0 ∨ unmappedOffset s.cfg off.toNat ∨
        (s.status.busy = true ∧ bufferOffset s.cfg off.toNat)) →
      step s = .next (s.answered { status := .error, data := some 0x0000000000000000#64 })) ∧
    ∀ v : Word, s.serves (.write off width v) →
      (width ≠ 8 ∨ off.toNat % 8 ≠ 0 ∨ unmappedOffset s.cfg off.toNat ∨ off.toNat = 0x00 ∨ off.toNat = 0x18 ∨
        (0x400000 ≤ off.toNat ∧ off.toNat < 0x600000) ∨ (s.status.busy = true ∧ bufferOffset s.cfg off.toNat)) →
      step s = .next (s.answered { status := .error, data := none })

/-- `20_memory.md` R66, R68, `10_state.md` R35: a write to a buffer element stores the word unchanged, lane b at host
byte address BASE + off + b, and changes no other byte and nothing else of the block. -/
def Obligations.BufferWriteStoresTheWord : Prop :=
  ∀ (s : State) (off : BitVec 23) (v : Word), s.cfg.log2nMax ≤ 17 → s.serves (.write off 8 v) →
    s.status.busy = false → bufferOffset s.cfg off.toNat →
    ∃ t, step s = .next t ∧ t = { s.answered writeOkay with mem := t.mem } ∧
      Memory.readWord t.mem off.toNat = some v ∧
      t.shows off.toNat v ∧
      (∀ a, ¬ inWindow off.toNat 1 a → Memory.readByte t.mem a = Memory.readByte s.mem a)

/-- `20_memory.md` R66, R67, `70_reset_and_hazards.md` R218: a read of a buffer element answers OKAY with the element,
whose bytes are at their addresses, or,
where it holds no value, with an unspecified word drawn afresh; the block's state stays. -/
def Obligations.BufferReadAnswersTheElement : Prop :=
  ∀ (s : State) (off : BitVec 23), s.cfg.log2nMax ≤ 17 → s.serves (.read off 8) →
    s.status.busy = false → bufferOffset s.cfg off.toNat →
    (∀ v, Memory.readWord s.mem off.toNat = some v →
      step s = .next (s.answered (readOkay v)) ∧ s.shows off.toNat v) ∧
    (Memory.readWord s.mem off.toNat = none →
      step s = .next { s.answered (readOkay (Config.unspecifiedWord s.draws)) with draws := s.draws + 1 })

/-- `20_memory.md` R66, R67, R71: the ROM windows are readable at every entry, while BUSY = 1 as well, and the entry's
bytes are at their addresses. -/
def Obligations.RomReadsAnswerTheEntry : Prop :=
  ∀ (s : State) (off : BitVec 23) (q : Nat) (w : Word), s.cfg.log2nMax ≤ 17 → s.serves (.read off 8) →
    q < s.cfg.nMax / 2 →
    (off.toNat = 0x400000 + 8 * q → s.cfg.romc[q]? = some w →
      step s = .next (s.answered (readOkay w)) ∧ s.shows off.toNat w) ∧
    (off.toNat = 0x500000 + 8 * q → s.cfg.roms[q]? = some w →
      step s = .next (s.answered (readOkay w)) ∧ s.shows off.toNat w)

/-- `20_memory.md` R67, R70: a read changes nothing but the two ports (and the model's own counter of free values). -/
def Obligations.ReadsChangeNoState : Prop :=
  ∀ (s : State) (off : BitVec 23) (width : Nat), s.serves (.read off width) →
    ∃ a t, step s = .next t ∧ t = { s.answered a with draws := t.draws }

/-- `20_memory.md` R72, R79: a step takes at most the oldest transaction, and answers it after all earlier answers. -/
def Obligations.TransactionsAreAnsweredInOrder : Prop :=
  ∀ s t : State, step s = .next t →
    (t.requests = s.requests ∧ t.responses = s.responses) ∨
    ∃ r a, s.requests = r :: t.requests ∧ t.responses = s.responses ++ [a]

/-! ## Interrupt and reset -/

/-- `60_exceptions.md` R189, `10_state.md` R42: irq is the function of STATUS and CTRL; it is 1 after a completion with
IE_DONE = 1 and, with IE_ERR = 1, after a CMD write rejected with any of the five codes. -/
def Obligations.IrqFollowsStatusAndCtrl : Prop :=
  (∀ s : State, s.irq = true ↔
    (s.status.done = true ∧ s.ctrl.ieDone = true) ∨ (s.status.err = true ∧ s.ctrl.ieErr = true)) ∧
  (∀ (i : Instr) (s t : State), s.turn = .engine → s.ctrl.ieDone = true → exec i s = .next t → t.irq = true) ∧
  (∀ (s t : State) (w : Word), s.presents w → s.ctrl.ieErr = true → step s = .next t →
    (s.status.busy = true ∨ (∃ e, decode w = .error e) ∨
      ∃ i, decode w = .ok i ∧ i ≠ .nop ∧
        (validSize s.cfg i.len = false ∨ (checksLength i = true ∧ (s.size.n = 0 ∨ i.len ≠ s.size.n)))) →
    t.irq = true)

/-- `10_state.md` R43: the state after reset, for every value of the parameters. -/
def Obligations.ResetValues : Prop :=
  ∀ c : Config,
    let s := State.resetOf c
    s.status = { busy := false, done := false, err := false, errcode := .none, curOp := 0x00#8 } ∧
    s.status.word = 0x0000000000000000#64 ∧ s.ctrl.word = 0x0000000000000000#64 ∧
    s.size.word = 0x0000000000000000#64 ∧ s.pending = none ∧ s.irq = false ∧ s.cfg = c ∧
    idWord s.cfg = 0#16 ++ BitVec.ofNat 8 c.log2nMax ++ 0x01#8 ++ 0x46465432#32 ∧
    ∀ i, Memory.readWord s.mem (realBase + 8 * i) = none ∧ Memory.readWord s.mem (imagBase + 8 * i) = none ∧
      Memory.readWord s.mem (magBase + 8 * i) = none

/-- `70_reset_and_hazards.md` R210, R211: when rst becomes asserted, stays so, or deasserts, the block takes the reset
state, whatever command was pending; the parameters, and with them ID and the ROM, stay. -/
def Obligations.ResetInputTakesTheResetState : Prop :=
  ∀ (s : State) (level : Bool), s.schedule.head? = some (.rst level) → level = true ∨ s.rst = true →
    step s = .next { State.resetOf s.cfg with
      rst := level
      requests := s.requests
      responses := s.responses
      schedule := s.schedule.tail
      turn := s.turn
      draws := s.draws }

/-- `70_reset_and_hazards.md` R210, `00_scope.md` R5: while rst is asserted a host transaction is held, or answered
ERROR with no effect, as RESET_BUS_RESPONSE says. -/
def Obligations.NoTransactionDuringReset : Prop :=
  ∀ (s : State) (r : Request), s.rst = true → s.schedule.head? = some .host → s.requests.head? = some r →
    ∃ t, step s = .next t ∧ t.status = (State.resetOf s.cfg).status ∧ t.ctrl = (State.resetOf s.cfg).ctrl ∧
      t.size = (State.resetOf s.cfg).size ∧ t.mem = [] ∧ t.pending = none ∧ t.rst = true ∧
      (s.cfg.resetBus = .stall → t.requests = s.requests ∧ t.responses = s.responses) ∧
      (s.cfg.resetBus = .error → t.requests = s.requests.tail ∧
        ∃ a, a.status = .error ∧ t.responses = s.responses ++ [a])

/-! ## Whole-machine rules -/

/-- `State.Inv` holds after reset (tier 1). -/
def Obligations.ResetMeetsTheInvariant : Prop :=
  State.reset.Inv ∧ ∀ c : Config, c.wf = true → (State.resetOf c).Inv

/-- Every step keeps `State.Inv`: the canonical memory, BUSY and pending, DONE, ERR and ERRCODE, SIZE, the pending
command's checks, and the reset state while rst is asserted. -/
def Obligations.StepKeepsTheInvariant : Prop :=
  ∀ s t : State, s.Inv → step s = .next t → t.Inv

/-- `60_exceptions.md` R180: an accepted command never fails, and no transaction stops the block. -/
def Obligations.TheMachineNeverStops : Prop :=
  (∀ s : State, answersNext (step s)) ∧ ∀ (i : Instr) (s : State), answersNext (exec i s)

/-- `10_state.md` R36, R24: no step changes the parameters, so no command, host write or reset changes the ROM or ID. -/
def Obligations.RomAndIdNeverChange : Prop :=
  ∀ s t : State, step s = .next t → t.cfg = s.cfg

/-- `10_state.md` R27: only the completion of an accepted CONFIG or ANALYZE writes SIZE, and reset. -/
def Obligations.OnlyConfigAndAnalyzeWriteSize : Prop :=
  ∀ s t : State, step s = .next t → t.size ≠ s.size →
    (∃ n, (s.pending = some (.config n) ∨ s.pending = some (.analyze n)) ∧ Completed t ∧
      t.size = { n := n, log2n := Nat.log2 n }) ∨
    (s.resets ∧ t.size = { n := 0, log2n := 0 })

/-- `40_control.md` R111, `20_memory.md` R68, R71: a buffer byte changes only in a completion, in a host write to that
element while BUSY = 0, or in reset. -/
def Obligations.BuffersChangeOnlyByCompletionWriteOrReset : Prop :=
  ∀ (s t : State) (a : Nat), step s = .next t → Memory.readByte t.mem a ≠ Memory.readByte s.mem a →
    (∃ i, s.pending = some i ∧ Completed t) ∨
    (s.status.busy = false ∧ ∃ off v, s.requests.head? = some (.write off 8 v) ∧ inWindow off.toNat 1 a) ∨
    (s.resets ∧ t.mem = [])

/-- `60_exceptions.md` R197: an accepted command is not cancelled by any command or register write; only its completion
or a reset ends it. -/
def Obligations.OnlyCompletionOrResetEndsACommand : Prop :=
  ∀ (s t : State) (i : Instr), s.status.busy = true → s.pending = some i → step s = .next t →
    (t.pending = some i ∧ t.status.busy = true ∧ t.mem = s.mem ∧ t.size = s.size) ∨
    (Completed t ∧ t.size = (if i = .config i.len ∨ i = .analyze i.len then
      { n := i.len, log2n := Nat.log2 i.len } else s.size)) ∨
    (s.resets ∧ t.pending = none)

/-- `10_state.md` R31, R32: ERR is cleared only by a STATUS write with bit 2 set and by reset; DONE only by a STATUS
write with bit 1 set, by the acceptance of a command and by reset. -/
def Obligations.FlagsAreClearedOnlyAsStated : Prop :=
  ∀ s t : State, step s = .next t →
    (s.status.err = true → t.status.err = false →
      s.resets ∨ ∃ v : Word, s.requests.head? = some (.write 0x08#23 8 v) ∧ v.getLsbD 2 = true) ∧
    (s.status.done = true → t.status.done = false →
      s.resets ∨ (∃ v : Word, s.requests.head? = some (.write 0x08#23 8 v) ∧ v.getLsbD 1 = true) ∨
      (s.status.busy = false ∧ t.status.busy = true ∧ t.pending ≠ none))

/-- `60_exceptions.md` R187: when a transaction and a completion are both ready, either order can happen: as the schedule
says, or, where it names nobody, as the delay drawn for the command says (log 2, log 18). -/
def Obligations.EitherOrderCanHappen : Prop :=
  ∀ (s : State) (r : Request) (i : Instr), s.rst = false → s.status.busy = true → s.pending = some i →
    s.requests.head? = some r →
    (∃ t, step { s with schedule := [.engine] } = .next t ∧ Completed t ∧ t.requests = s.requests) ∧
    (∃ t, step { s with schedule := [.host] } = .next t ∧ t.pending = some i ∧ t.requests = s.requests.tail ∧
      t.responses.length = s.responses.length + 1) ∧
    (∃ t, step { s with schedule := [], delay := 0 } = .next t ∧ Completed t ∧ t.requests = s.requests) ∧
    (∀ d, ∃ t, step { s with schedule := [], delay := d + 1 } = .next t ∧ t.pending = some i ∧
      t.requests = s.requests.tail ∧ t.responses.length = s.responses.length + 1 ∧ t.delay = d)

/-- `70_reset_and_hazards.md` R222: an accepted command completes after finitely many steps unless a reset comes first.
Left alone, a machine needs at most one step more than the schedule's entries and the waiting transactions together.
Where a host goes on sending transactions without end, at most one more than the schedule's entries and the command's
delay together (log 18). Where the schedule is extended without end as well, it completes under the fairness assumption
on the engine's step. -/
def Obligations.PendingCommandCompletes : Prop :=
  (∀ (s : State) (i : Instr), s.status.busy = true → s.pending = some i → s.rst = false →
    (∀ level, Tick.rst level ∉ s.schedule) →
    ∃ k t, k ≤ s.schedule.length + s.requests.length + 1 ∧ Sys2Proof.core.run k s = .next t ∧ Completed t) ∧
  (∀ (requests : Nat → List Request) (run : Nat → State) (i : Instr), FedRun requests (fun _ => []) run →
    (run 0).status.busy = true → (run 0).pending = some i → (run 0).rst = false →
    (∀ level, Tick.rst level ∉ (run 0).schedule) →
    ∃ k, k ≤ (run 0).schedule.length + (run 0).delay + 1 ∧ Completed (run k)) ∧
  (∀ (requests : Nat → List Request) (ticks : Nat → List Tick) (run : Nat → State) (i : Instr),
    FedRun requests ticks run → FairRun requests ticks run →
    (run 0).status.busy = true → (run 0).pending = some i → (run 0).rst = false →
    (∀ k level, Tick.rst level ∉ ((run k).arrive (requests k) (ticks k)).schedule) →
    ∃ k, Completed (run k))
end

