-- ==== Sys2Proof/Laws/Memory.lean ====
section
/-! SUPPORT. The laws of the buffer memory: what one byte and one element read as after a write, that a write keeps the
canonical form and leaves every other byte alone, and which cells it can leave. -/

namespace Sys2Proof.Machine.Memory

@[simp] theorem readByte_nil (a : Nat) : readByte [] a = none := rfl

theorem readByte_cons (k : Nat) (v : Byte) (m : Memory) (a : Nat) :
    readByte ((k, v) :: m) a = if k = a then some v else readByte m a := rfl

theorem readByte_append (m m' : Memory) (a : Nat) :
    readByte (m ++ m') a = (readByte m a).or (readByte m' a) := by
  induction m with
  | nil => simp
  | cons c m ih => obtain ⟨k, v⟩ := c; by_cases h : k = a <;> simp [readByte_cons, h, ih]

theorem readByte_filter (p : Nat → Bool) (m : Memory) (a : Nat) :
    readByte (m.filter (fun c => p c.1)) a = if p a then readByte m a else none := by
  induction m with
  | nil => simp
  | cons c m ih =>
    obtain ⟨k, v⟩ := c
    by_cases hk : p k <;> by_cases h : k = a
    · subst h; simp [hk, readByte_cons]
    · simp [hk, readByte_cons, ih, h]
    · subst h; simp [hk, ih]
    · simp [hk, readByte_cons, ih, h]

/-- A word is the concatenation of its lanes. -/
theorem wordOfBytes_bytesOfWord (w : Word) : wordOfBytes (bytesOfWord w) = some w := by
  simp only [wordOfBytes, bytesOfWord, byteLane, Option.some.injEq]
  apply BitVec.eq_of_getLsbD_eq
  intro i hi
  simp only [BitVec.getLsbD_append, BitVec.getLsbD_extractLsb']
  interval_cases i <;> simp

theorem readByte_cellsOfWord (off : Nat) (w : Option Word) (a : Nat) :
    readByte (cellsOfWord off w) a =
      if off ≤ a ∧ a < off + 8 then w.map (fun v => byteLane v (a - off)) else none := by
  cases w with
  | none => simp [cellsOfWord]
  | some w =>
    by_cases h : off ≤ a ∧ a < off + 8
    · obtain ⟨j, rfl⟩ := Nat.exists_eq_add_of_le h.1
      have hj : j < 8 := by omega
      interval_cases j <;> simp [cellsOfWord, readByte_cons]
    · simp only [h, if_false, cellsOfWord, readByte_cons, readByte_nil]
      repeat rw [if_neg (by omega)]

/-- One byte of consecutive elements: inside their span the lane of the element there, outside it nothing. -/
theorem readByte_cellsOfWords (ws : List (Option Word)) (off a : Nat) :
    readByte (cellsOfWords off ws) a =
      if off ≤ a ∧ a < off + 8 * ws.length then
        (ws[(a - off) / 8]?.join).map (fun v => byteLane v ((a - off) % 8))
      else none := by
  induction ws generalizing off with
  | nil => simp [cellsOfWords]
  | cons w ws ih =>
    simp only [cellsOfWords, readByte_append, readByte_cellsOfWord, ih, List.length_cons]
    by_cases h1 : off ≤ a ∧ a < off + 8
    · have h2 : ¬ (off + 8 ≤ a ∧ a < off + 8 + 8 * ws.length) := by omega
      have h3 : off ≤ a ∧ a < off + 8 * (ws.length + 1) := by omega
      have h4 : (a - off) / 8 = 0 := by omega
      have h5 : (a - off) % 8 = a - off := by omega
      simp [h1, h2, h3, h4, h5]
    · by_cases h2 : off + 8 ≤ a ∧ a < off + 8 + 8 * ws.length
      · have h3 : off ≤ a ∧ a < off + 8 * (ws.length + 1) := by omega
        have h4 : (a - off) / 8 = (a - (off + 8)) / 8 + 1 := by omega
        have h5 : (a - off) % 8 = (a - (off + 8)) % 8 := by omega
        rw [if_neg h1, if_pos h2, if_pos h3, h4, h5]
        simp
      · have h3 : ¬ (off ≤ a ∧ a < off + 8 * (ws.length + 1)) := by omega
        simp [h1, h2, h3]

/-- Everything a write does to one byte. -/
theorem readByte_writeWords (m : Memory) (off : Nat) (ws : List (Option Word)) (a : Nat) :
    readByte (writeWords m off ws) a =
      if off ≤ a ∧ a < off + 8 * ws.length then
        (ws[(a - off) / 8]?.join).map (fun v => byteLane v ((a - off) % 8))
      else readByte m a := by
  have e1 := readByte_filter (fun k => decide (k < off)) m a
  have e2 := readByte_filter (fun k => decide (off + 8 * ws.length ≤ k)) m a
  simp only [writeWords, readByte_append, e1, e2, readByte_cellsOfWords, decide_eq_true_eq]
  by_cases h1 : a < off
  · rw [if_pos h1, if_neg (by omega), if_neg (by omega), if_neg (by omega)]; simp
  · by_cases h2 : a < off + 8 * ws.length
    · rw [if_neg h1, if_pos (by omega), if_neg (by omega), if_pos (by omega)]; simp
    · rw [if_neg h1, if_neg (by omega), if_pos (by omega), if_neg (by omega)]; simp

theorem readByte_writeWords_outside {off a : Nat} {ws : List (Option Word)} (m : Memory)
    (h : ¬ inWindow off ws.length a) : readByte (writeWords m off ws) a = readByte m a := by
  rw [readByte_writeWords]; exact if_neg h

/-- An element reads as the same in two memories that agree on its eight bytes. -/
theorem readWord_congr {m m' : Memory} {a : Nat}
    (h : ∀ b, b < 8 → readByte m (a + b) = readByte m' (a + b)) : readWord m a = readWord m' a := by
  simp only [readWord]
  rw [h 1 (by omega), h 2 (by omega), h 3 (by omega), h 4 (by omega), h 5 (by omega), h 6 (by omega),
    h 7 (by omega)]
  have h0 := h 0 (by omega)
  simp only [Nat.add_zero] at h0
  rw [h0]

theorem readWord_writeWords_outside {off a : Nat} {ws : List (Option Word)} (m : Memory)
    (h : a + 8 ≤ off ∨ off + 8 * ws.length ≤ a) : readWord (writeWords m off ws) a = readWord m a :=
  readWord_congr fun b hb => readByte_writeWords_outside m (by unfold inWindow; omega)

/-- An element that has been written reads as what was written, or holds no value if none was. -/
theorem readWord_writeWords_inside {off i : Nat} {ws : List (Option Word)} (m : Memory) (h : i < ws.length) :
    readWord (writeWords m off ws) (off + 8 * i) = ws[i] := by
  have hb : ∀ b, b < 8 → readByte (writeWords m off ws) (off + 8 * i + b) =
      (ws[i]).map (fun v => byteLane v b) := by
    intro b hb
    have e1 : (off + 8 * i + b - off) / 8 = i := by omega
    have e2 : (off + 8 * i + b - off) % 8 = b := by omega
    rw [readByte_writeWords, if_pos (by omega), e1, e2]
    simp [h]
  have h0 := hb 0 (by omega)
  simp only [Nat.add_zero] at h0
  simp only [readWord]
  rw [h0, hb 1 (by omega), hb 2 (by omega), hb 3 (by omega), hb 4 (by omega), hb 5 (by omega),
    hb 6 (by omega), hb 7 (by omega)]
  cases hw : ws[i] with
  | none => rfl
  | some w => exact wordOfBytes_bytesOfWord w

theorem readWord_writeWord (m : Memory) (off : Nat) (w : Word) : readWord (writeWord m off w) off = some w :=
  readWord_writeWords_inside (off := off) (i := 0) (ws := [some w]) m Nat.one_pos

theorem mem_cellsOfWord {off : Nat} {w : Option Word} {c : Host.Cell} (h : c ∈ cellsOfWord off w) :
    off ≤ c.1 ∧ c.1 < off + 8 := by
  cases w with
  | none => simp [cellsOfWord] at h
  | some w =>
    simp only [cellsOfWord, List.mem_cons, List.not_mem_nil, or_false] at h
    rcases h with h | h | h | h | h | h | h | h <;> subst h <;> constructor <;> simp

theorem mem_cellsOfWords {ws : List (Option Word)} {off : Nat} {c : Host.Cell} (h : c ∈ cellsOfWords off ws) :
    inWindow off ws.length c.1 := by
  induction ws generalizing off with
  | nil => simp [cellsOfWords] at h
  | cons w ws ih =>
    simp only [cellsOfWords, List.mem_append] at h
    unfold inWindow at *
    rcases h with h | h
    · have := mem_cellsOfWord h
      simp only [List.length_cons]; omega
    · have := ih h
      simp only [List.length_cons]; omega

/-- A cell after a write was there before or is one of the written span. -/
theorem mem_writeWords {m : Memory} {off : Nat} {ws : List (Option Word)} {c : Host.Cell}
    (h : c ∈ writeWords m off ws) : c ∈ m ∨ inWindow off ws.length c.1 := by
  simp only [writeWords, List.mem_append, List.mem_filter] at h
  rcases h with (h | h) | h
  · exact .inl h.1
  · exact .inr (mem_cellsOfWords h)
  · exact .inl h.1

theorem wf_cellsOfWord (off : Nat) (w : Option Word) : wf (cellsOfWord off w) := by
  cases w with
  | none => exact List.Pairwise.nil
  | some w => simp [wf, cellsOfWord]

theorem wf_cellsOfWords (ws : List (Option Word)) (off : Nat) : wf (cellsOfWords off ws) := by
  induction ws generalizing off with
  | nil => exact List.Pairwise.nil
  | cons w ws ih =>
    refine List.pairwise_append.2 ⟨wf_cellsOfWord off w, ih (off + 8), ?_⟩
    intro x hx y hy
    have h1 := mem_cellsOfWord hx
    have h2 := (mem_cellsOfWords hy).1
    omega

/-- A write keeps the canonical form. -/
theorem wf_writeWords {m : Memory} (h : wf m) (off : Nat) (ws : List (Option Word)) : wf (writeWords m off ws) := by
  refine List.pairwise_append.2 ⟨List.pairwise_append.2 ⟨h.filter _, wf_cellsOfWords ws off, ?_⟩, h.filter _, ?_⟩
  · intro x hx y hy
    have h1 := of_decide_eq_true (List.mem_filter.1 hx).2
    have h2 := (mem_cellsOfWords hy).1
    omega
  · intro x hx y hy
    have h2 := of_decide_eq_true (List.mem_filter.1 hy).2
    rcases List.mem_append.1 hx with hx | hx
    · have h1 := of_decide_eq_true (List.mem_filter.1 hx).2
      omega
    · have h1 := (mem_cellsOfWords hx).2
      omega

@[simp] theorem length_readWords (m : Memory) (n off : Nat) : (readWords m off n).length = n := by
  induction n generalizing off with
  | zero => rfl
  | succ n ih => simp [readWords, ih]

theorem getElem?_readWords (m : Memory) {n i : Nat} (off : Nat) (h : i < n) :
    (readWords m off n)[i]? = some (readWord m (off + 8 * i)) := by
  induction n generalizing off i with
  | zero => omega
  | succ n ih =>
    cases i with
    | zero => simp [readWords]
    | succ i =>
      simp only [readWords, List.getElem?_cons_succ]
      rw [ih (off + 8) (by omega)]
      congr 2
      omega

end Sys2Proof.Machine.Memory
end

