-- ==== Sys2Proof/Laws/State.lean ====
section
/-! SUPPORT. One lemma per field of State per update, each true by rfl, so that no later proof unfolds a record
update. -/

namespace Sys2Proof.Machine

section
variable (s : State) (e : ErrCode)

@[simp] theorem State.reject_cfg : (s.reject e).cfg = s.cfg := rfl
@[simp] theorem State.reject_status : (s.reject e).status = { s.status with err := true, errcode := e } := rfl
@[simp] theorem State.reject_ctrl : (s.reject e).ctrl = s.ctrl := rfl
@[simp] theorem State.reject_size : (s.reject e).size = s.size := rfl
@[simp] theorem State.reject_mem : (s.reject e).mem = s.mem := rfl
@[simp] theorem State.reject_pending : (s.reject e).pending = s.pending := rfl
@[simp] theorem State.reject_rst : (s.reject e).rst = s.rst := rfl
@[simp] theorem State.reject_requests : (s.reject e).requests = s.requests := rfl
@[simp] theorem State.reject_responses : (s.reject e).responses = s.responses := rfl
@[simp] theorem State.reject_schedule : (s.reject e).schedule = s.schedule := rfl
@[simp] theorem State.reject_turn : (s.reject e).turn = s.turn := rfl
@[simp] theorem State.reject_delay : (s.reject e).delay = s.delay := rfl
@[simp] theorem State.reject_draws : (s.reject e).draws = s.draws := rfl

end

section
variable (s : State) (i : Instr)

@[simp] theorem State.accept_cfg : (s.accept i).cfg = s.cfg := rfl
@[simp] theorem State.accept_status : (s.accept i).status = { s.status with busy := true, done := false, curOp := i.opcode } := rfl
@[simp] theorem State.accept_ctrl : (s.accept i).ctrl = s.ctrl := rfl
@[simp] theorem State.accept_size : (s.accept i).size = s.size := rfl
@[simp] theorem State.accept_mem : (s.accept i).mem = s.mem := rfl
@[simp] theorem State.accept_pending : (s.accept i).pending = some i := rfl
@[simp] theorem State.accept_rst : (s.accept i).rst = s.rst := rfl
@[simp] theorem State.accept_requests : (s.accept i).requests = s.requests := rfl
@[simp] theorem State.accept_responses : (s.accept i).responses = s.responses := rfl
@[simp] theorem State.accept_schedule : (s.accept i).schedule = s.schedule := rfl
@[simp] theorem State.accept_turn : (s.accept i).turn = s.turn := rfl
@[simp] theorem State.accept_delay : (s.accept i).delay = Config.completionDelay s.draws := rfl
@[simp] theorem State.accept_draws : (s.accept i).draws = s.draws + 1 := rfl

end

section
variable (s : State)

@[simp] theorem State.complete_cfg : (s.complete).cfg = s.cfg := rfl
@[simp] theorem State.complete_status : (s.complete).status = { s.status with busy := false, done := true } := rfl
@[simp] theorem State.complete_ctrl : (s.complete).ctrl = s.ctrl := rfl
@[simp] theorem State.complete_size : (s.complete).size = s.size := rfl
@[simp] theorem State.complete_mem : (s.complete).mem = s.mem := rfl
@[simp] theorem State.complete_pending : (s.complete).pending = none := rfl
@[simp] theorem State.complete_rst : (s.complete).rst = s.rst := rfl
@[simp] theorem State.complete_requests : (s.complete).requests = s.requests := rfl
@[simp] theorem State.complete_responses : (s.complete).responses = s.responses := rfl
@[simp] theorem State.complete_schedule : (s.complete).schedule = s.schedule := rfl
@[simp] theorem State.complete_turn : (s.complete).turn = s.turn := rfl
@[simp] theorem State.complete_delay : (s.complete).delay = s.delay := rfl
@[simp] theorem State.complete_draws : (s.complete).draws = s.draws := rfl

end

section
variable (s : State) (r : Response)

@[simp] theorem State.respond_cfg : (s.respond r).cfg = s.cfg := rfl
@[simp] theorem State.respond_status : (s.respond r).status = s.status := rfl
@[simp] theorem State.respond_ctrl : (s.respond r).ctrl = s.ctrl := rfl
@[simp] theorem State.respond_size : (s.respond r).size = s.size := rfl
@[simp] theorem State.respond_mem : (s.respond r).mem = s.mem := rfl
@[simp] theorem State.respond_pending : (s.respond r).pending = s.pending := rfl
@[simp] theorem State.respond_rst : (s.respond r).rst = s.rst := rfl
@[simp] theorem State.respond_requests : (s.respond r).requests = s.requests := rfl
@[simp] theorem State.respond_responses : (s.respond r).responses = s.responses ++ [r] := rfl
@[simp] theorem State.respond_schedule : (s.respond r).schedule = s.schedule := rfl
@[simp] theorem State.respond_turn : (s.respond r).turn = s.turn := rfl
@[simp] theorem State.respond_delay : (s.respond r).delay = s.delay := rfl
@[simp] theorem State.respond_draws : (s.respond r).draws = s.draws := rfl

end

section
variable (s : State)

@[simp] theorem State.doReset_cfg : (s.doReset).cfg = s.cfg := rfl
@[simp] theorem State.doReset_status : (s.doReset).status = (State.resetOf s.cfg).status := rfl
@[simp] theorem State.doReset_ctrl : (s.doReset).ctrl = (State.resetOf s.cfg).ctrl := rfl
@[simp] theorem State.doReset_size : (s.doReset).size = { n := 0, log2n := 0 } := rfl
@[simp] theorem State.doReset_mem : (s.doReset).mem = [] := rfl
@[simp] theorem State.doReset_pending : (s.doReset).pending = none := rfl
@[simp] theorem State.doReset_rst : (s.doReset).rst = s.rst := rfl
@[simp] theorem State.doReset_requests : (s.doReset).requests = s.requests := rfl
@[simp] theorem State.doReset_responses : (s.doReset).responses = s.responses := rfl
@[simp] theorem State.doReset_schedule : (s.doReset).schedule = s.schedule := rfl
@[simp] theorem State.doReset_turn : (s.doReset).turn = s.turn := rfl
@[simp] theorem State.doReset_delay : (s.doReset).delay = 0 := rfl
@[simp] theorem State.doReset_draws : (s.doReset).draws = s.draws := rfl

end

section
variable (s : State) (re im : List (Option Word))

@[simp] theorem State.storeComplex_cfg : (s.storeComplex re im).cfg = s.cfg := rfl
@[simp] theorem State.storeComplex_status : (s.storeComplex re im).status = s.status := rfl
@[simp] theorem State.storeComplex_ctrl : (s.storeComplex re im).ctrl = s.ctrl := rfl
@[simp] theorem State.storeComplex_size : (s.storeComplex re im).size = s.size := rfl
@[simp] theorem State.storeComplex_mem : (s.storeComplex re im).mem = Memory.writeWords (Memory.writeWords s.mem realBase re) imagBase im := rfl
@[simp] theorem State.storeComplex_pending : (s.storeComplex re im).pending = s.pending := rfl
@[simp] theorem State.storeComplex_rst : (s.storeComplex re im).rst = s.rst := rfl
@[simp] theorem State.storeComplex_requests : (s.storeComplex re im).requests = s.requests := rfl
@[simp] theorem State.storeComplex_responses : (s.storeComplex re im).responses = s.responses := rfl
@[simp] theorem State.storeComplex_schedule : (s.storeComplex re im).schedule = s.schedule := rfl
@[simp] theorem State.storeComplex_turn : (s.storeComplex re im).turn = s.turn := rfl
@[simp] theorem State.storeComplex_delay : (s.storeComplex re im).delay = s.delay := rfl
@[simp] theorem State.storeComplex_draws : (s.storeComplex re im).draws = s.draws := rfl

end

section
variable (n : Nat) (s : State)

@[simp] theorem configEffect_cfg : (configEffect n s).cfg = s.cfg := rfl
@[simp] theorem configEffect_status : (configEffect n s).status = s.status := rfl
@[simp] theorem configEffect_ctrl : (configEffect n s).ctrl = s.ctrl := rfl
@[simp] theorem configEffect_size : (configEffect n s).size = { n := n, log2n := Nat.log2 n } := rfl
@[simp] theorem configEffect_mem : (configEffect n s).mem = s.mem := rfl
@[simp] theorem configEffect_pending : (configEffect n s).pending = s.pending := rfl
@[simp] theorem configEffect_rst : (configEffect n s).rst = s.rst := rfl
@[simp] theorem configEffect_requests : (configEffect n s).requests = s.requests := rfl
@[simp] theorem configEffect_responses : (configEffect n s).responses = s.responses := rfl
@[simp] theorem configEffect_schedule : (configEffect n s).schedule = s.schedule := rfl
@[simp] theorem configEffect_turn : (configEffect n s).turn = s.turn := rfl
@[simp] theorem configEffect_delay : (configEffect n s).delay = s.delay := rfl
@[simp] theorem configEffect_draws : (configEffect n s).draws = s.draws := rfl

end

section
variable (n : Nat) (s : State)

@[simp] theorem zeroImag_cfg : (zeroImag n s).cfg = s.cfg := rfl
@[simp] theorem zeroImag_status : (zeroImag n s).status = s.status := rfl
@[simp] theorem zeroImag_ctrl : (zeroImag n s).ctrl = s.ctrl := rfl
@[simp] theorem zeroImag_size : (zeroImag n s).size = s.size := rfl
@[simp] theorem zeroImag_pending : (zeroImag n s).pending = s.pending := rfl
@[simp] theorem zeroImag_rst : (zeroImag n s).rst = s.rst := rfl
@[simp] theorem zeroImag_requests : (zeroImag n s).requests = s.requests := rfl
@[simp] theorem zeroImag_responses : (zeroImag n s).responses = s.responses := rfl
@[simp] theorem zeroImag_schedule : (zeroImag n s).schedule = s.schedule := rfl
@[simp] theorem zeroImag_turn : (zeroImag n s).turn = s.turn := rfl
@[simp] theorem zeroImag_delay : (zeroImag n s).delay = s.delay := rfl
@[simp] theorem zeroImag_draws : (zeroImag n s).draws = s.draws := rfl

end

section
variable (n : Nat) (s : State)

@[simp] theorem bitrevEffect_cfg : (bitrevEffect n s).cfg = s.cfg := rfl
@[simp] theorem bitrevEffect_status : (bitrevEffect n s).status = s.status := rfl
@[simp] theorem bitrevEffect_ctrl : (bitrevEffect n s).ctrl = s.ctrl := rfl
@[simp] theorem bitrevEffect_size : (bitrevEffect n s).size = s.size := rfl
@[simp] theorem bitrevEffect_pending : (bitrevEffect n s).pending = s.pending := rfl
@[simp] theorem bitrevEffect_rst : (bitrevEffect n s).rst = s.rst := rfl
@[simp] theorem bitrevEffect_requests : (bitrevEffect n s).requests = s.requests := rfl
@[simp] theorem bitrevEffect_responses : (bitrevEffect n s).responses = s.responses := rfl
@[simp] theorem bitrevEffect_schedule : (bitrevEffect n s).schedule = s.schedule := rfl
@[simp] theorem bitrevEffect_turn : (bitrevEffect n s).turn = s.turn := rfl
@[simp] theorem bitrevEffect_delay : (bitrevEffect n s).delay = s.delay := rfl
@[simp] theorem bitrevEffect_draws : (bitrevEffect n s).draws = s.draws := rfl

end

section
variable (n : Nat) (s : State)

@[simp] theorem bflyEffect_cfg : (bflyEffect n s).cfg = s.cfg := rfl
@[simp] theorem bflyEffect_status : (bflyEffect n s).status = s.status := rfl
@[simp] theorem bflyEffect_ctrl : (bflyEffect n s).ctrl = s.ctrl := rfl
@[simp] theorem bflyEffect_size : (bflyEffect n s).size = s.size := rfl
@[simp] theorem bflyEffect_pending : (bflyEffect n s).pending = s.pending := rfl
@[simp] theorem bflyEffect_rst : (bflyEffect n s).rst = s.rst := rfl
@[simp] theorem bflyEffect_requests : (bflyEffect n s).requests = s.requests := rfl
@[simp] theorem bflyEffect_responses : (bflyEffect n s).responses = s.responses := rfl
@[simp] theorem bflyEffect_schedule : (bflyEffect n s).schedule = s.schedule := rfl
@[simp] theorem bflyEffect_turn : (bflyEffect n s).turn = s.turn := rfl
@[simp] theorem bflyEffect_delay : (bflyEffect n s).delay = s.delay := rfl
@[simp] theorem bflyEffect_draws : (bflyEffect n s).draws = s.draws + 2 * n := rfl

end

section
variable (n : Nat) (s : State)

@[simp] theorem fftEffect_cfg : (fftEffect n s).cfg = s.cfg := rfl
@[simp] theorem fftEffect_status : (fftEffect n s).status = s.status := rfl
@[simp] theorem fftEffect_ctrl : (fftEffect n s).ctrl = s.ctrl := rfl
@[simp] theorem fftEffect_size : (fftEffect n s).size = s.size := rfl
@[simp] theorem fftEffect_pending : (fftEffect n s).pending = s.pending := rfl
@[simp] theorem fftEffect_rst : (fftEffect n s).rst = s.rst := rfl
@[simp] theorem fftEffect_requests : (fftEffect n s).requests = s.requests := rfl
@[simp] theorem fftEffect_responses : (fftEffect n s).responses = s.responses := rfl
@[simp] theorem fftEffect_schedule : (fftEffect n s).schedule = s.schedule := rfl
@[simp] theorem fftEffect_turn : (fftEffect n s).turn = s.turn := rfl
@[simp] theorem fftEffect_delay : (fftEffect n s).delay = s.delay := rfl
@[simp] theorem fftEffect_draws : (fftEffect n s).draws = s.draws + 2 * n := rfl

end

section
variable (n : Nat) (s : State)

@[simp] theorem magEffect_cfg : (magEffect n s).cfg = s.cfg := rfl
@[simp] theorem magEffect_status : (magEffect n s).status = s.status := rfl
@[simp] theorem magEffect_ctrl : (magEffect n s).ctrl = s.ctrl := rfl
@[simp] theorem magEffect_size : (magEffect n s).size = s.size := rfl
@[simp] theorem magEffect_pending : (magEffect n s).pending = s.pending := rfl
@[simp] theorem magEffect_rst : (magEffect n s).rst = s.rst := rfl
@[simp] theorem magEffect_requests : (magEffect n s).requests = s.requests := rfl
@[simp] theorem magEffect_responses : (magEffect n s).responses = s.responses := rfl
@[simp] theorem magEffect_schedule : (magEffect n s).schedule = s.schedule := rfl
@[simp] theorem magEffect_turn : (magEffect n s).turn = s.turn := rfl
@[simp] theorem magEffect_delay : (magEffect n s).delay = s.delay := rfl
@[simp] theorem magEffect_draws : (magEffect n s).draws = s.draws + n / 2 := rfl

end

section
variable (n : Nat) (s : State)

@[simp] theorem analyzeEffect_cfg : (analyzeEffect n s).cfg = s.cfg := rfl
@[simp] theorem analyzeEffect_status : (analyzeEffect n s).status = s.status := rfl
@[simp] theorem analyzeEffect_ctrl : (analyzeEffect n s).ctrl = s.ctrl := rfl
@[simp] theorem analyzeEffect_size : (analyzeEffect n s).size = { n := n, log2n := Nat.log2 n } := rfl
@[simp] theorem analyzeEffect_pending : (analyzeEffect n s).pending = s.pending := rfl
@[simp] theorem analyzeEffect_rst : (analyzeEffect n s).rst = s.rst := rfl
@[simp] theorem analyzeEffect_requests : (analyzeEffect n s).requests = s.requests := rfl
@[simp] theorem analyzeEffect_responses : (analyzeEffect n s).responses = s.responses := rfl
@[simp] theorem analyzeEffect_schedule : (analyzeEffect n s).schedule = s.schedule := rfl
@[simp] theorem analyzeEffect_turn : (analyzeEffect n s).turn = s.turn := rfl
@[simp] theorem analyzeEffect_delay : (analyzeEffect n s).delay = s.delay := rfl
@[simp] theorem analyzeEffect_draws : (analyzeEffect n s).draws = s.draws + 2 * n + n / 2 := rfl

end

end Sys2Proof.Machine
end

