-- ==== Sys2Proof/Laws/Ops.lean ====
section
/-! SUPPORT. What each shared operation can do, said once: the meanings as one operation over each command's effect, the
two turns of a command, the issue step's three outcomes, and the front of a step case by case. -/

namespace Sys2Proof.Machine

/-- The pseudocode of each command (R112, R113, R134, R137, R138, R161, R162). -/
def effectOf : Instr → State → State
  | .nop => id
  | .config n => configEffect n
  | .bitrev n => bitrevEffect n
  | .bfly n => bflyEffect n
  | .fft n => fftEffect n
  | .mag n => magEffect n
  | .analyze n => analyzeEffect n

/-- Every meaning is the one shared operation over the command's own effect. -/
theorem exec_eq_command (i : Instr) (s : State) : exec i s = s.command i (effectOf i) := by
  cases i <;> rfl

theorem exec_host {s : State} (i : Instr) (h : s.turn = .host) : exec i s = .next (s.issue i) := by
  rw [exec_eq_command]; simp [State.command, h]

theorem exec_engine {s : State} (i : Instr) (h : s.turn = .engine) :
    exec i s = .next (effectOf i s).complete := by
  rw [exec_eq_command]; simp [State.command, h]

/-- `exec` always answers a next state. -/
theorem exec_next (i : Instr) (s : State) : ∃ t, exec i s = .next t := by
  cases h : s.turn with
  | host => exact ⟨_, exec_host i h⟩
  | engine => exact ⟨_, exec_engine i h⟩

/-- The outcomes of issuing a command: a BUSY rejection, a rejection by its checks, or acceptance. -/
theorem issue_cases (s : State) (i : Instr) :
    (s.status.busy = true ∧ s.issue i = s.reject .busy) ∨
    (s.status.busy = false ∧ ∃ e, s.operandError i = some e ∧ s.issue i = s.reject e) ∨
    (s.status.busy = false ∧ s.operandError i = none ∧ s.issue i = s.accept i) := by
  unfold State.issue
  cases hb : s.status.busy with
  | true => simp
  | false => cases he : s.operandError i <;> simp

theorem sizeError_eq_some {s : State} {n : Nat} {e : ErrCode} (h : s.sizeError n = some e) : e = .invalidSize := by
  unfold State.sizeError at h
  split at h
  · cases h
  · exact (Option.some.inj h).symm

theorem lengthError_eq_some {s : State} {n : Nat} {e : ErrCode} (h : s.lengthError n = some e) :
    e = .invalidSize ∨ e = .notConfigured ∨ e = .lengthMismatch := by
  unfold State.lengthError at h
  split at h
  · exact .inl (Option.some.inj h).symm
  · split at h
    · exact .inr (.inl (Option.some.inj h).symm)
    · split at h
      · exact .inr (.inr (Option.some.inj h).symm)
      · cases h

/-- A check that fails names one of the codes 1, 2 and 3. -/
theorem operandError_eq_some {s : State} {i : Instr} {e : ErrCode} (h : s.operandError i = some e) :
    e = .invalidSize ∨ e = .notConfigured ∨ e = .lengthMismatch := by
  cases i with
  | nop => cases h
  | config n => exact .inl (sizeError_eq_some h)
  | analyze n => exact .inl (sizeError_eq_some h)
  | bitrev n => exact lengthError_eq_some h
  | bfly n => exact lengthError_eq_some h
  | fft n => exact lengthError_eq_some h
  | mag n => exact lengthError_eq_some h

/-- What the issue of a command leaves alone, whatever its outcome. -/
theorem issue_frame (s : State) (i : Instr) :
    (s.issue i).cfg = s.cfg ∧ (s.issue i).ctrl = s.ctrl ∧ (s.issue i).size = s.size ∧ (s.issue i).mem = s.mem ∧
      (s.issue i).rst = s.rst ∧ (s.issue i).requests = s.requests ∧ (s.issue i).responses = s.responses ∧
      (s.issue i).schedule = s.schedule ∧ (s.issue i).turn = s.turn := by
  rcases issue_cases s i with ⟨_, h⟩ | ⟨_, e, _, h⟩ | ⟨_, _, h⟩ <;> simp [h]

/-- What a command's pseudocode leaves alone (R111). -/
theorem effectOf_frame (i : Instr) (s : State) :
    (effectOf i s).cfg = s.cfg ∧ (effectOf i s).status = s.status ∧ (effectOf i s).ctrl = s.ctrl ∧
      (effectOf i s).pending = s.pending ∧ (effectOf i s).rst = s.rst ∧ (effectOf i s).requests = s.requests ∧
      (effectOf i s).responses = s.responses ∧ (effectOf i s).schedule = s.schedule ∧
      (effectOf i s).turn = s.turn ∧ (effectOf i s).delay = s.delay := by
  cases i <;> simp [effectOf]

/-- A command's completion as its effect and the three flags (R111). -/
theorem effectOf_size (i : Instr) (s : State) :
    (effectOf i s).size = match i with
      | .config n => { n := n, log2n := Nat.log2 n }
      | .analyze n => { n := n, log2n := Nat.log2 n }
      | _ => s.size := by
  cases i <;> simp [effectOf]

/-! ## The front of a step -/

section
variable {s : State}

@[simp] theorem front_rst {level : Bool} {rest : List Tick} (h : s.schedule = .rst level :: rest) :
    s.front = ({ s with schedule := rest }.driveRst level, none) := by
  simp [State.front, h]

theorem front_host {rest : List Tick} (h : s.schedule = .host :: rest) :
    s.front = { s with schedule := rest }.hostStep := by
  simp [State.front, h]

theorem front_engine {rest : List Tick} (h : s.schedule = .engine :: rest) :
    s.front = { s with schedule := rest }.engineStep := by
  simp [State.front, h]

theorem front_nil (h : s.schedule = []) : s.front = s.unscheduledStep := by
  simp [State.front, h]

theorem hostStep_serve {r : Request} {rest : List Request} (hr : s.rst = false) (h : s.requests = r :: rest) :
    s.hostStep = { s with requests := rest }.serve r := by
  simp [State.hostStep, hr, h]

theorem engineStep_pending {i : Instr} (hr : s.rst = false) (h : s.pending = some i) :
    s.engineStep = ({ s with turn := .engine }, some i) := by
  simp [State.engineStep, hr, h]

theorem engineStep_idle (hr : s.rst = false) (h : s.pending = none) : s.engineStep = (s, none) := by
  simp [State.engineStep, hr, h]

end

theorem step_of_front_some {s t : State} {i : Instr} (h : s.front = (t, some i)) : step s = exec i t := by
  simp [step, h]

theorem step_of_front_none {s t : State} (h : s.front = (t, none)) : step s = .next t := by
  simp [step, h]

/-- A step that serves a transaction, in terms of the transaction alone. -/
theorem front_of_serves {s : State} {r : Request} (h : s.serves r) :
    s.front = { s with schedule := s.schedule.tail, requests := s.requests.tail }.serve r := by
  obtain ⟨hr, hs, hq⟩ := h
  cases hreq : s.requests with
  | nil => simp [hreq] at hq
  | cons y more =>
    simp only [hreq, List.head?_cons, Option.some.injEq] at hq
    subst hq
    rcases hs with hs | ⟨hs, hp⟩
    · cases hsch : s.schedule with
      | nil => simp [hsch] at hs
      | cons x rest =>
        simp only [hsch, List.head?_cons, Option.some.injEq] at hs
        subst hs
        rw [front_host hsch]
        exact hostStep_serve (s := { s with schedule := rest }) hr hreq
    · have ht : s.schedule.tail = s.schedule := by rw [hs]; rfl
      rw [front_nil hs, ht]
      unfold State.unscheduledStep
      split
      · simp_all
      · exact hostStep_serve hr hreq
      · simp_all

/-- A step in which the engine moves runs the pending command. -/
theorem front_of_engineMoves {s : State} {i : Instr} (hr : s.rst = false) (hp : s.pending = some i)
    (h : s.engineMoves) :
    s.front = ({ s with schedule := s.schedule.tail, turn := .engine }, some i) := by
  rcases h with h | ⟨h, hd⟩
  · cases hsch : s.schedule with
    | nil => simp [hsch] at h
    | cons x rest =>
      simp only [hsch, List.head?_cons, Option.some.injEq] at h
      subst h
      rw [front_engine hsch]
      exact engineStep_pending (s := { s with schedule := rest }) hr hp
  · have ht : s.schedule.tail = s.schedule := by rw [h]; rfl
    rw [front_nil h, ht]
    unfold State.unscheduledStep
    split
    · exact engineStep_pending hr hp
    · simp_all
    · rcases hd with hd | hd
      · simp_all
      · rw [if_pos hd]
        exact engineStep_pending hr hp

/-! ## The byte view of the aperture -/

/-- A byte-addressed host sees the lanes of what a register or element holds (`20_memory.md` R66). -/
theorem hostByte_busAddress {s : State} {off b : Nat} (ha : off % 8 = 0) (ho : off < apertureSpan) (hb : b < 8) :
    s.hostByte (busAddress s.cfg off + b) =
      (s.contents off (target s.cfg off)).map (fun w => byteLane w b) := by
  have h1 : s.cfg.base ≤ s.cfg.base + off + b ∧ s.cfg.base + off + b < s.cfg.base + apertureSpan := by
    unfold apertureSpan at *
    omega
  have h2 : s.cfg.base + off + b - s.cfg.base = off + b := by omega
  have h3 : (off + b) / 8 * 8 = off := by omega
  have h4 : (off + b) % 8 = b := by omega
  simp only [State.hostByte, busAddress, if_pos h1, h2, h3, h4]

end Sys2Proof.Machine
end

