-- ==== Sys2Proof/Laws/Transform.lean ====
section
/-! SUPPORT. The lengths the transform keeps, and the elements the commands read and store, by index. -/

namespace Sys2Proof.Machine

section
variable {α : Type}

@[simp] theorem length_butterflyAt (bf : Nat → α → α → α × α) (hm : Nat) (x : List α) (p : Nat × Nat) :
    (butterflyAt bf hm x p).length = x.length := by
  unfold butterflyAt
  split <;> simp

theorem length_foldl_butterflyAt (bf : Nat → α → α → α × α) (hm : Nat) (ps : List (Nat × Nat)) (x : List α) :
    (ps.foldl (butterflyAt bf hm) x).length = x.length := by
  induction ps generalizing x with
  | nil => rfl
  | cons p ps ih => simp [ih]

@[simp] theorem length_stage (bf : Nat → α → α → α × α) (n : Nat) (x : List α) (m : Nat) :
    (stage bf n x m).length = x.length :=
  length_foldl_butterflyAt bf (m / 2) (stagePairs n m) x

@[simp] theorem length_network (bf : Nat → α → α → α × α) (n : Nat) (x : List α) :
    (network bf n x).length = x.length := by
  unfold network
  generalize (List.range (Nat.log2 n)).map (fun t => 2 ^ (t + 1)) = ms
  induction ms generalizing x with
  | nil => rfl
  | cons m ms ih => simp [ih]

@[simp] theorem length_permute (l : Nat) (x : List α) : (permute l x).length = x.length := by
  unfold permute
  generalize List.range x.length = is
  suffices h : ∀ y : List α, y.length = x.length → (is.foldl (fun y i => match x[i]? with
      | some v => y.set (rev l i) v
      | none => y) y).length = x.length from h x rfl
  induction is with
  | nil => exact fun y h => h
  | cons i is ih =>
    intro y h
    refine ih _ ?_
    dsimp only
    split <;> simp [h]

end

@[simp] theorem length_elements (m : Memory) (off n : Nat) : (elements m off n).length = n := by
  simp [elements]

theorem getElem?_elements (m : Memory) (off : Nat) {n i : Nat} (h : i < n) :
    (elements m off n)[i]? = some ((Memory.readWord m (off + 8 * i)).map f64) := by
  simp [elements, Memory.getElem?_readWords m off h]

@[simp] theorem length_samples (s : State) (n : Nat) : (s.samples n).length = n := by
  simp [State.samples]

/-- Sample i is the pair of the values of REAL[i] and IMAG[i]. -/
theorem getElem?_samples (s : State) {n i : Nat} (h : i < n) :
    (s.samples n)[i]? = some ((Memory.readWord s.mem (realBase + 8 * i)).map f64,
      (Memory.readWord s.mem (imagBase + 8 * i)).map f64) := by
  rw [State.samples, List.zip, List.getElem?_zipWith, getElem?_elements _ _ h, getElem?_elements _ _ h]

@[simp] theorem length_transformed (s : State) (n : Nat) : (s.transformed n).length = n := by
  simp [State.transformed]

@[simp] theorem length_patterns (k : Nat) (es : List Element) : (patterns k es).length = es.length := by
  induction es generalizing k with
  | nil => rfl
  | cons e es ih => simp [patterns, ih]

/-- The pattern of element i is made with draw number k + i. -/
theorem getElem?_patterns (k : Nat) (es : List Element) (i : Nat) :
    (patterns k es)[i]? = (es[i]?).map (fun e => e.map (bits64 (quietNan (Config.nanDraw (k + i))))) := by
  induction es generalizing k i with
  | nil => simp [patterns]
  | cons e es ih =>
    cases i with
    | zero => simp [patterns]
    | succ i =>
      have hk : k + 1 + i = k + (i + 1) := by omega
      simp [patterns, ih, hk]

@[simp] theorem length_magnitudes (n i : Nat) (xs : List Sample) : (magnitudes n i xs).length = xs.length := by
  induction xs generalizing i with
  | nil => rfl
  | cons x xs ih => simp [magnitudes, ih]

/-- Magnitude j of a run that starts at bin i is that of bin i + j. -/
theorem getElem?_magnitudes (n i j : Nat) (xs : List Sample) :
    (magnitudes n i xs)[j]? = (xs[j]?).map (fun x => lift2 (magnitude n (i + j)) x.1 x.2) := by
  induction xs generalizing i j with
  | nil => simp [magnitudes]
  | cons x xs ih =>
    cases j with
    | zero => simp [magnitudes]
    | succ j =>
      have hk : i + 1 + j = i + (j + 1) := by omega
      simp [magnitudes, ih, hk]

/-- validSize(n) bounds n by N_MAX, and with LOG2N_MAX ≤ 17 no window overlaps another. -/
theorem validSize_le {c : Config} {n : Nat} (h : validSize c n = true) : n ≤ c.nMax := by
  simp only [validSize, Bool.and_eq_true, decide_eq_true_eq] at h
  obtain ⟨⟨h1, -⟩, h3⟩ := h
  rw [← h1, Config.nMax]
  exact Nat.pow_le_pow_right (by omega) h3

theorem nMax_le {c : Config} (h : c.log2nMax ≤ 17) : c.nMax ≤ 131072 := by
  have := Nat.pow_le_pow_right (show 0 < 2 by omega) h
  simpa [Config.nMax] using this

/-- What two window writes leave alone. -/
theorem readByte_storeComplex_outside {s : State} {n a : Nat} {re im : List (Option Word)} (hr : re.length = n)
    (hi : im.length = n) (h1 : ¬ inWindow realBase n a) (h2 : ¬ inWindow imagBase n a) :
    Memory.readByte (s.storeComplex re im).mem a = Memory.readByte s.mem a := by
  subst hr
  rw [State.storeComplex_mem, Memory.readByte_writeWords_outside _ (by rwa [hi]),
    Memory.readByte_writeWords_outside _ h1]

theorem readWord_storeComplex_real {s : State} {i : Nat} {re im : List (Option Word)} (hi : i < re.length)
    (hn : re.length ≤ 131072) :
    Memory.readWord (s.storeComplex re im).mem (realBase + 8 * i) = re[i] := by
  rw [State.storeComplex_mem,
    Memory.readWord_writeWords_outside _ (by left; simp only [realBase, imagBase]; omega),
    Memory.readWord_writeWords_inside _ hi]

theorem readWord_storeComplex_imag {s : State} {i : Nat} {re im : List (Option Word)} (hi : i < im.length) :
    Memory.readWord (s.storeComplex re im).mem (imagBase + 8 * i) = im[i] := by
  rw [State.storeComplex_mem, Memory.readWord_writeWords_inside _ hi]

end Sys2Proof.Machine
end

