-- ==== Sys2Proof/Laws/PerInstr.lean ====
section
/-! SUPPORT. The family RoundTrip, one lemma per constructor of Instr: the word of a well-formed command has its OP, no
reserved bit and its LEN (`30_encoding.md` R90), which is what decoding reads. -/

namespace Sys2Proof.Laws.RoundTrip

/-- What the three fields of a command's word hold (R90, R92). -/
def Statement (i : Instr) : Prop :=
  i.wellFormed = true →
    opField (encode i) = i.opcode ∧ rsvField (encode i) = 0#24 ∧ (lenField (encode i)).toNat = i.len

theorem fields (len : Nat) (op : BitVec 8) (h : len < 2 ^ 32) :
    opField (BitVec.ofNat 32 len ++ 0#24 ++ op) = op ∧ rsvField (BitVec.ofNat 32 len ++ 0#24 ++ op) = 0#24 ∧
      (lenField (BitVec.ofNat 32 len ++ 0#24 ++ op)).toNat = len := by
  refine ⟨?_, ?_, ?_⟩
  · apply BitVec.eq_of_getLsbD_eq
    intro j hj
    have h1 : 0 + j = j := by omega
    simp only [opField, BitVec.getLsbD_extractLsb', BitVec.getLsbD_append, hj, h1, decide_true, Bool.true_and, if_true]
  · apply BitVec.eq_of_getLsbD_eq
    intro j hj
    have h1 : ¬ (8 + j < 8) := by omega
    have h2 : 8 + j - 8 < 24 := by omega
    simp only [rsvField, BitVec.getLsbD_extractLsb', BitVec.getLsbD_append, hj, h1, h2, decide_true, Bool.true_and,
      if_true, if_false, BitVec.getLsbD_zero]
  · have : lenField (BitVec.ofNat 32 len ++ 0#24 ++ op) = BitVec.ofNat 32 len := by
      apply BitVec.eq_of_getLsbD_eq
      intro j hj
      have h1 : ¬ (32 + j < 8) := by omega
      have h2 : ¬ (32 + j - 8 < 24) := by omega
      have h3 : 32 + j - 8 - 24 = j := by omega
      simp only [lenField, BitVec.getLsbD_extractLsb', BitVec.getLsbD_append, hj, h1, h2, h3, decide_true,
        Bool.true_and, if_false]
    rw [this, BitVec.toNat_ofNat, Nat.mod_eq_of_lt h]

theorem ofWellFormed (i : Instr) : Statement i := fun h => fields i.len i.opcode (of_decide_eq_true h)

theorem nop : Statement .nop := ofWellFormed _
theorem config (n : Nat) : Statement (.config n) := ofWellFormed _
theorem bitrev (n : Nat) : Statement (.bitrev n) := ofWellFormed _
theorem bfly (n : Nat) : Statement (.bfly n) := ofWellFormed _
theorem fft (n : Nat) : Statement (.fft n) := ofWellFormed _
theorem mag (n : Nat) : Statement (.mag n) := ofWellFormed _
theorem analyze (n : Nat) : Statement (.analyze n) := ofWellFormed _

end Sys2Proof.Laws.RoundTrip
end

