-- ==== Sys2Proof/Laws/Step.lean ====
section
/-! SUPPORT. Everything a step can do, said once (`step_cases`, `serve_cases`); the whole-machine rules follow from these
two without unfolding the step again. -/

namespace Sys2Proof.Machine

/-! ## The register offsets -/

/-- An offset below the first window names a register, one in a window never does. -/
theorem target_register {c : Config} {off : Nat} {r : Target} (h : target c off = r)
    (hr : r = .id ∨ r = .status ∨ r = .ctrl ∨ r = .size ∨ r = .cmd) : registerAt off = r := by
  unfold target at h
  dsimp only at h
  split at h
  · exact h
  all_goals (try split at h) <;> subst h <;> simp at hr

theorem offset_of_status {c : Config} {off : BitVec 23} (h : target c off.toNat = .status) : off = 0x08#23 := by
  have h' := target_register h (by simp)
  unfold registerAt at h'
  split_ifs at h'
  apply BitVec.eq_of_toNat_eq
  assumption

theorem offset_of_ctrl {c : Config} {off : BitVec 23} (h : target c off.toNat = .ctrl) : off = 0x10#23 := by
  have h' := target_register h (by simp)
  unfold registerAt at h'
  split_ifs at h'
  apply BitVec.eq_of_toNat_eq
  assumption

theorem offset_of_cmd {c : Config} {off : BitVec 23} (h : target c off.toNat = .cmd) : off = 0x20#23 := by
  have h' := target_register h (by simp)
  unfold registerAt at h'
  split_ifs at h'
  apply BitVec.eq_of_toNat_eq
  assumption

/-! ## Inversion -/

/-- What serving one transaction can do: answer only; clear bits of STATUS; write CTRL; store an element; reject an
illegal word; or hand a command to `exec`. -/
theorem serve_cases (u : State) (r : Request) :
    (∃ a d, u.serve r = ({ u.respond a with draws := d }, none)) ∨
    (∃ v, r = .write 0x08#23 8 v ∧
      u.serve r = ({ u.respond writeOkay with status := u.status.clearedBy v }, none)) ∨
    (∃ v, r = .write 0x10#23 8 v ∧ u.serve r = ({ u.respond writeOkay with ctrl := ctrlOf v }, none)) ∨
    (∃ off v, r = .write off 8 v ∧ u.status.busy = false ∧ off.toNat % 8 = 0 ∧ target u.cfg off.toNat = .buffer ∧
      u.serve r = ({ u.respond writeOkay with mem := Memory.writeWord u.mem off.toNat v }, none)) ∨
    (∃ w, r = .write 0x20#23 8 w ∧ (∃ e, decode w = .error e) ∧
      u.serve r = ({ u.respond writeOkay with turn := .host }.issueIllegal, none)) ∨
    (∃ w i, r = .write 0x20#23 8 w ∧ decode w = .ok i ∧
      u.serve r = ({ u.respond writeOkay with turn := .host }, some i)) := by
  cases r with
  | read off width =>
    refine .inl ?_
    have helem : ∀ e, ∃ a d, u.readElement e = { u.respond a with draws := d } := by
      intro e
      cases e with
      | none => exact ⟨_, _, rfl⟩
      | some w => exact ⟨_, u.draws, rfl⟩
    have hans : ∀ a, ∃ a' d, u.respond a = { u.respond a' with draws := d } := fun a => ⟨a, u.draws, rfl⟩
    simp only [State.serve, Prod.mk.injEq, and_true, State.hostRead]
    split
    · split
      · exact hans _
      · split
        · exact hans _
        · exact helem _
      · exact helem _
    · exact hans _
  | write off width v =>
    have hans : ∀ a, ∃ a' d, (u.respond a, (none : Option Instr)) = ({ u.respond a' with draws := d }, none) :=
      fun a => ⟨a, u.draws, rfl⟩
    simp only [State.serve, State.hostWrite]
    by_cases hl : legalAccess off.toNat width = true
    · rw [if_pos hl]
      simp only [legalAccess, Bool.and_eq_true, decide_eq_true_eq] at hl
      obtain ⟨rfl, hal⟩ := hl
      cases ht : target u.cfg off.toNat with
      | id => exact .inl (hans _)
      | size => exact .inl (hans _)
      | romc q => exact .inl (hans _)
      | roms q => exact .inl (hans _)
      | unmapped => exact .inl (hans _)
      | status => exact .inr (.inl ⟨v, by rw [offset_of_status ht], rfl⟩)
      | ctrl => exact .inr (.inr (.inl ⟨v, by rw [offset_of_ctrl ht], rfl⟩))
      | buffer =>
        cases hb : u.status.busy with
        | true => exact .inl (by simpa [hb] using hans writeError)
        | false => exact .inr (.inr (.inr (.inl ⟨off, v, rfl, rfl, hal, ht, by simp⟩)))
      | cmd =>
        have hoff := offset_of_cmd ht
        subst hoff
        cases hd : decode v with
        | ok i => exact .inr (.inr (.inr (.inr (.inr ⟨v, i, rfl, hd, by simp [State.present, hd]⟩))))
        | error e => exact .inr (.inr (.inr (.inr (.inl ⟨v, rfl, ⟨e, hd⟩, by simp [State.present, hd]⟩))))
    · rw [if_neg hl]
      exact .inl (hans _)

/-- The host's step takes the reset state, has nothing to do, or serves the oldest transaction. -/
theorem hostStep_cases (u : State) :
    (u.rst = true ∧ ∃ reqs resps, u.hostStep = ({ u.doReset with requests := reqs, responses := resps }, none)) ∨
    (u.rst = false ∧ u.requests = [] ∧ u.hostStep = (u, none)) ∨
    (∃ r rest, u.rst = false ∧ u.requests = r :: rest ∧ u.hostStep = { u with requests := rest }.serve r) := by
  cases hr : u.rst with
  | true =>
    refine .inl ⟨rfl, ?_⟩
    cases hq : u.requests with
    | nil => exact ⟨u.requests, u.responses, by simp [State.hostStep, hr, hq, State.doReset]⟩
    | cons r rest =>
      cases hb : u.cfg.resetBus with
      | stall => exact ⟨u.requests, u.responses, by simp [State.hostStep, hr, hq, hb, State.doReset]⟩
      | error => exact ⟨rest, u.responses ++ [busError r], by simp [State.hostStep, hr, hq, hb, State.respond]⟩
  | false =>
    cases hq : u.requests with
    | nil => exact .inr (.inl ⟨rfl, rfl, by simp [State.hostStep, hr, hq]⟩)
    | cons r rest => exact .inr (.inr ⟨r, rest, rfl, rfl, by rw [hostStep_serve hr hq, hr]⟩)

/-- The engine's step takes the reset state, has nothing to do, or runs the pending command. -/
theorem engineStep_cases (u : State) :
    (u.rst = true ∧ u.engineStep = (u.doReset, none)) ∨
    (u.rst = false ∧ u.pending = none ∧ u.engineStep = (u, none)) ∨
    (∃ i, u.rst = false ∧ u.pending = some i ∧ u.engineStep = ({ u with turn := .engine }, some i)) := by
  cases hr : u.rst with
  | true => exact .inl ⟨rfl, by simp [State.engineStep, hr]⟩
  | false =>
    cases hp : u.pending with
    | none => exact .inr (.inl ⟨rfl, rfl, engineStep_idle hr hp⟩)
    | some i => exact .inr (.inr ⟨i, rfl, rfl, by rw [engineStep_pending hr hp, hr, hp]⟩)

/-- A step begins with a change of rst, the host's step or the engine's step. `d` is what is left of the pending
command's delay. -/
theorem front_cases (s : State) :
    (∃ level, s.schedule.head? = some (.rst level) ∧
      s.front = ({ s with schedule := s.schedule.tail }.driveRst level, none)) ∨
    (∃ d, s.front = { s with schedule := s.schedule.tail, delay := d }.hostStep) ∨
    s.front = { s with schedule := s.schedule.tail }.engineStep := by
  cases hs : s.schedule with
  | cons x rest =>
    cases x with
    | rst level => exact .inl ⟨level, rfl, front_rst hs⟩
    | host => exact .inr (.inl ⟨s.delay, front_host hs⟩)
    | engine => exact .inr (.inr (front_engine hs))
  | nil =>
    have hst : s.schedule.tail = s.schedule := by rw [hs]; rfl
    rw [← hs, hst]
    rw [front_nil hs]
    unfold State.unscheduledStep
    split
    · exact .inr (.inr rfl)
    · exact .inr (.inl ⟨s.delay, rfl⟩)
    · split
      · exact .inr (.inr rfl)
      · exact .inr (.inl ⟨s.delay - 1, rfl⟩)

/-- Everything a step can do: take the reset state; do nothing but move on in the schedule; complete the pending
command; or serve the oldest transaction, with the command it presents issued in the host's turn. -/
theorem step_cases {s t : State} (h : step s = .next t) :
    (s.resets ∧ ∃ level reqs resps, t = { s.doReset with
      rst := level, requests := reqs, responses := resps, schedule := s.schedule.tail } ∧
      (level = s.rst ∨ s.schedule.head? = some (.rst level))) ∨
    (∃ d, t = { s with schedule := s.schedule.tail, delay := d }) ∨
    (∃ i, s.rst = false ∧ s.pending = some i ∧
      t = (effectOf i { s with schedule := s.schedule.tail, turn := .engine }).complete) ∨
    (∃ r rest d v, s.rst = false ∧ s.requests = r :: rest ∧
      ((({ s with schedule := s.schedule.tail, requests := rest, delay := d } : State).serve r = (v, none) ∧ t = v) ∨
      ∃ i, ({ s with schedule := s.schedule.tail, requests := rest, delay := d } : State).serve r = (v, some i) ∧
        exec i v = .next t)) := by
  rcases front_cases s with ⟨level, hl, hf⟩ | ⟨d, hf⟩ | hf
  · rw [step_of_front_none hf, Host.Outcome.next.injEq] at h
    subst h
    unfold State.driveRst
    split
    · rename_i hlr
      refine .inl ⟨?_, level, s.requests, s.responses, rfl, .inr hl⟩
      rcases (Bool.or_eq_true _ _).mp hlr with h1 | h1
      · exact .inr (h1 ▸ hl)
      · exact .inl h1
    · exact .inr (.inl ⟨s.delay, rfl⟩)
  · rcases hostStep_cases { s with schedule := s.schedule.tail, delay := d } with
      ⟨hr, reqs, resps, hh⟩ | ⟨_, _, hh⟩ | ⟨r, rest, hr, hq, hh⟩
    · rw [step_of_front_none (hf.trans hh), Host.Outcome.next.injEq] at h
      exact .inl ⟨.inl hr, s.rst, reqs, resps, h.symm, .inl rfl⟩
    · rw [step_of_front_none (hf.trans hh), Host.Outcome.next.injEq] at h
      exact .inr (.inl ⟨d, h.symm⟩)
    · rw [hh] at hf
      cases hsv : ({ s with schedule := s.schedule.tail, requests := rest, delay := d } : State).serve r with
      | mk v oi =>
        refine .inr (.inr (.inr ⟨r, rest, d, v, hr, hq, ?_⟩))
        cases oi with
        | none =>
          rw [step_of_front_none (hf.trans hsv), Host.Outcome.next.injEq] at h
          exact .inl ⟨hsv, h.symm⟩
        | some i =>
          rw [step_of_front_some (hf.trans hsv)] at h
          exact .inr ⟨i, hsv, h⟩
  · rcases engineStep_cases { s with schedule := s.schedule.tail } with
      ⟨hr, hh⟩ | ⟨_, _, hh⟩ | ⟨i, hr, hp, hh⟩
    · rw [step_of_front_none (hf.trans hh), Host.Outcome.next.injEq] at h
      exact .inl ⟨.inl hr, s.rst, s.requests, s.responses, h.symm, .inl rfl⟩
    · rw [step_of_front_none (hf.trans hh), Host.Outcome.next.injEq] at h
      exact .inr (.inl ⟨s.delay, h.symm⟩)
    · rw [step_of_front_some (hf.trans hh), exec_engine i rfl, Host.Outcome.next.injEq] at h
      exact .inr (.inr (.inl ⟨i, hr, hp, h.symm⟩))

/-! ## A pending command -/

/-- Whatever a transaction does to a busy block, the command stays pending and the transaction gets its one answer. -/
theorem serve_of_busy {u v t : State} {r : Request} {oi : Option Instr} (hs : u.serve r = (v, oi))
    (hb : u.status.busy = true) (ht : (oi = none ∧ t = v) ∨ ∃ i, oi = some i ∧ exec i v = .next t) :
    t.status.busy = true ∧ t.pending = u.pending ∧ t.rst = u.rst ∧ t.schedule = u.schedule ∧
      t.requests = u.requests ∧ t.delay = u.delay ∧ t.responses.length = u.responses.length + 1 := by
  rcases serve_cases u r with ⟨a, d, h⟩ | ⟨w, _, h⟩ | ⟨w, _, h⟩ | ⟨off, w, _, hf, _, _, h⟩ | ⟨w, _, _, h⟩ |
    ⟨w, j, _, _, h⟩ <;> rw [hs] at h <;> obtain ⟨rfl, rfl⟩ := Prod.mk.inj h <;>
    simp only [reduceCtorEq, false_and, exists_false, or_false, false_or, true_and] at ht
  · subst ht; simp [hb]
  · subst ht; simp [Status.clearedBy, hb]
  · subst ht; simp [hb]
  · simp [hb] at hf
  · subst ht; simp [State.issueIllegal, hb]
  · obtain ⟨i, hi, he⟩ := ht
    cases hi
    rw [exec_host _ rfl, Host.Outcome.next.injEq] at he
    subst he
    simp [State.issue, hb]

/-- A step in which the engine moves completes the pending command and takes no transaction. -/
theorem step_of_engineMoves {s t : State} {i : Instr} (hr : s.rst = false) (hp : s.pending = some i)
    (h : s.engineMoves) (ht : step s = .next t) : Completed t ∧ t.requests = s.requests := by
  rw [step_of_front_some (front_of_engineMoves hr hp h), exec_engine i rfl, Host.Outcome.next.injEq] at ht
  subst ht
  exact ⟨⟨rfl, rfl, rfl⟩, (effectOf_frame i _).2.2.2.2.2.1⟩

/-- A step that serves a transaction of a busy block, from the state the transaction finds. -/
theorem step_of_serve_busy {s u t : State} {r : Request} (hf : s.front = u.serve r) (hb : u.status.busy = true)
    (ht : step s = .next t) :
    t.status.busy = true ∧ t.pending = u.pending ∧ t.rst = u.rst ∧ t.schedule = u.schedule ∧
      t.requests = u.requests ∧ t.delay = u.delay ∧ t.responses.length = u.responses.length + 1 := by
  cases hs : u.serve r with
  | mk v oi =>
    refine serve_of_busy hs hb ?_
    cases oi with
    | none =>
      rw [step_of_front_none (hf.trans hs), Host.Outcome.next.injEq] at ht
      exact .inl ⟨rfl, ht.symm⟩
    | some i =>
      rw [step_of_front_some (hf.trans hs)] at ht
      exact .inr ⟨_, rfl, ht⟩

end Sys2Proof.Machine
end

