-- ==== Sys2Proof/Tests/Slice0.lean ====
section
/-! SUPPORT. Tests of single steps, with results from the spec's own vectors (`95_test_vectors.md`), and for every
statement that has hypotheses a theorem `witness_<its name>` that shows states and operands meeting them. -/

namespace Sys2Proof.Tests

open Sys2Proof.Machine

-- One test at a time: many kernel evaluations side by side run out of thread stacks.
set_option Elab.async false

/-! ## Small machines -/

/-- A block with N_MAX = 8: the reference ROM of that size, whose four entries `41_transform.md` R131 gives. -/
def small : Config :=
  { log2nMax := 3
    base := 0x800000
    romc := [0x3FF0000000000000#64, 0x3FE6A09E667F3BCD#64, 0x0000000000000000#64, 0xBFE6A09E667F3BCD#64]
    roms := [0x0000000000000000#64, 0x3FE6A09E667F3BCD#64, 0x3FF0000000000000#64, 0x3FE6A09E667F3BCD#64]
    resetBus := .stall }

/-- The small block after reset. -/
def idle : State := State.resetOf small

/-- The small block configured to size n, holding these samples. -/
def loaded (n : Nat) (re im : List Word) : State :=
  { idle with
    size := { n := n, log2n := Nat.log2 n }
    mem := Memory.writeWords (Memory.writeWords [] realBase (re.map some)) imagBase (im.map some) }

/-- The host's next transaction, in the host's step. -/
def State.asked (s : State) (r : Request) : State := { s with requests := [r], schedule := [.host] }

/-- The command pending, the engine's step next. -/
def State.running (s : State) (i : Instr) : State := { s.accept i with schedule := [.engine] }

/-- The next state of a step. -/
def after : Host.Outcome State Fault Refusal → Option State
  | .next t => some t
  | .fault _ => none
  | .refused _ => none

/-- STATUS and SIZE after a step. -/
def statusAndSize (s : State) : Option (Word × Word) := (after (step s)).map (fun t => (t.status.word, t.size.word))

/-- STATUS after the CMD write of a word. -/
def statusAfterCmd (s : State) (w : Word) : Option Word :=
  (after (step (s.withFetchWord 64 w.toNat))).map (fun t => t.status.word)

/-- The answers after one transaction. -/
def answers (s : State) (r : Request) : Option (List Response) :=
  (after (step (State.asked s r))).map (fun t => t.responses)

/-- REAL[0 .. n) and IMAG[0 .. n) after a step. -/
def buffersAfter (n : Nat) (s : State) : Option (List (Option Word) × List (Option Word)) :=
  (after (step s)).map (fun t => (Memory.readWords t.mem realBase n, Memory.readWords t.mem imagBase n))

/-- MAGB[0 .. n) after a step. -/
def magnitudesAfter (n : Nat) (s : State) : Option (List (Option Word)) :=
  (after (step s)).map (fun t => Memory.readWords t.mem magBase n)

/-- 1, 2, 3, 4 and zeros as binary64. -/
def oneToFour : List Word :=
  [0x3FF0000000000000#64, 0x4000000000000000#64, 0x4008000000000000#64, 0x4010000000000000#64]

/-- +0.0, n times. -/
def zeros (n : Nat) : List Word := List.replicate n 0x0000000000000000#64

/-! ## Well-formedness (`30_encoding.md` R91: LEN is in [0, 2^32)) -/

theorem test_len_of_33_bits_is_refused :
    Instr.wellFormed (.config 4294967296) = false ∧ Instr.wellFormed (.bitrev 4294967296) = false ∧
    Instr.wellFormed (.bfly 4294967296) = false ∧ Instr.wellFormed (.fft 4294967296) = false ∧
    Instr.wellFormed (.mag 4294967296) = false ∧ Instr.wellFormed (.analyze 4294967296) = false := by decide

theorem test_len_of_32_bits_is_admitted :
    Instr.wellFormed (.analyze 4294967295) = true ∧ Instr.wellFormed .nop = true := by decide

/-! ## Decoding (R98, L2.1; the words of BITREV and BFLY by R90: LEN, 24 zeros, OP) -/

theorem test_decode_nop : decode 0x0000000000000000#64 = .ok .nop := by decide
theorem test_decode_config : decode 0x0000006400000001#64 = .ok (.config 100) := by decide
theorem test_decode_bitrev :
    decode 0b0000000000000000000000000000100000000000000000000000000000000010#64 = .ok (.bitrev 8) := by decide
theorem test_decode_bfly :
    decode 0b0000000000000000000000000000010000000000000000000000000000000011#64 = .ok (.bfly 4) := by decide
theorem test_decode_fft : decode 0xFFFFFFFF00000004#64 = .ok (.fft 4294967295) := by decide
theorem test_decode_mag : decode 0x0000000800000005#64 = .ok (.mag 8) := by decide
theorem test_decode_analyze : decode 0x0000100000000006#64 = .ok (.analyze 4096) := by decide
theorem test_decode_reserved_opcodes :
    decode 0x0000000000000007#64 = .error .reservedOpcode ∧ decode 0x0000000000000080#64 = .error .reservedOpcode ∧
    decode 0x00000000000000FF#64 = .error .reservedOpcode := by decide
theorem test_decode_reserved_bits :
    decode 0x0000000400000104#64 = .error .reservedBits ∧ decode 0x0000000080000000#64 = .error .reservedBits := by
  decide
theorem test_decode_nop_with_length : decode 0x0000000100000000#64 = .error .nopWithLength := by decide
theorem test_encode_analyze : encode (.analyze 64) = 0x0000004000000006#64 := by decide
theorem test_table_word_of_32_bits : decodeTableWord 32 0x00000004 = some (.fft 0) := by decide

/-! ## Issue and completion (L2.2, on a block with N_MAX = 8) -/

theorem test_nop_issue : statusAfterCmd idle 0x0000000000000000#64 = some 0x0000000000000001#64 := by
  decide +kernel
theorem test_nop_completes :
    statusAndSize (State.running idle .nop) = some (0x0000000000000002#64, 0x0000000000000000#64) := by decide +kernel
theorem test_config_rejects_sizes :
    statusAfterCmd idle 0x0000000100000001#64 = some 0x0000000000000104#64 ∧
    statusAfterCmd idle 0x0000000000000001#64 = some 0x0000000000000104#64 ∧
    statusAfterCmd idle 0x0000000600000001#64 = some 0x0000000000000104#64 ∧
    statusAfterCmd idle 0x0000001000000001#64 = some 0x0000000000000104#64 := by decide +kernel
theorem test_config_completes :
    statusAndSize (State.running idle (.config 8)) = some (0x0000000000010002#64, 0x0000000300000008#64) := by
  decide +kernel
theorem test_length_errors_in_order :
    statusAfterCmd idle 0x0000006400000004#64 = some 0x0000000000000104#64 ∧
    statusAfterCmd idle 0x0000000400000004#64 = some 0x0000000000000304#64 ∧
    statusAfterCmd (loaded 8 [] []) 0x0000000400000005#64 = some 0x0000000000000204#64 ∧
    statusAfterCmd (loaded 8 [] []) 0x0000000800000004#64 = some 0x0000000000040001#64 := by decide +kernel
theorem test_busy_wins_over_illegal :
    statusAfterCmd (State.running (loaded 8 [] []) (.fft 8)) 0x0000000000000007#64 = some 0x0000000000040405#64 ∧
    statusAfterCmd idle 0x0000000000000007#64 = some 0x0000000000000504#64 := by decide +kernel
theorem test_reference_machine_runs_its_first_word :
    (after (step (State.reset.withFetchWord 64 0x0000100000000006))).map (fun t => t.pending) =
      some (some (.analyze 4096)) := by decide +kernel

/-! ## The data commands (L2.6 to L2.9) -/

/-- L2.6, N = 8; an element that holds no value moves too (`70_reset_and_hazards.md` R218). -/
theorem test_bitrev_moves_words_bit_for_bit :
    buffersAfter 4 (State.running
      (loaded 4 [1#64, 0x7FF0000000000001#64, 3#64, 4#64] [5#64, 0x8000000000000000#64, 7#64]) (.bitrev 4)) =
      some ([some 1#64, some 3#64, some 0x7FF0000000000001#64, some 4#64],
        [some 5#64, some 7#64, some 0x8000000000000000#64, none]) := by decide +kernel

theorem test_bitrev_8_order :
    (buffersAfter 8 (State.running
      (loaded 8 [0#64, 1#64, 2#64, 3#64, 4#64, 5#64, 6#64, 7#64] []) (.bitrev 8))).map Prod.fst =
      some [some 0#64, some 4#64, some 2#64, some 6#64, some 1#64, some 5#64, some 3#64, some 7#64] := by decide +kernel

/-- L2.7, last paragraph but one: BFLY 4 on natural order gives [10, −1, −4, −1] and [+0, 1, +0, −1]. -/
theorem test_bfly_does_not_reorder :
    buffersAfter 4 (State.running (loaded 4 oneToFour (zeros 4)) (.bfly 4)) =
      some ([some 0x4024000000000000#64, some 0xBFF0000000000000#64, some 0xC010000000000000#64,
          some 0xBFF0000000000000#64],
        [some 0x0000000000000000#64, some 0x3FF0000000000000#64, some 0x0000000000000000#64,
          some 0xBFF0000000000000#64]) := by decide +kernel

/-- R218: one missing element makes the results that depend on it missing, and only those. -/
theorem test_bfly_of_a_missing_element :
    (buffersAfter 2 (State.running
      (loaded 2 [0x3FF0000000000000#64, 0x4000000000000000#64] [0x0000000000000000#64]) (.bfly 2))) =
      some ([none, none], [none, none]) := by decide +kernel

/-- F2. -/
theorem test_fft_4 :
    buffersAfter 4 (State.running (loaded 4 oneToFour (zeros 4)) (.fft 4)) =
      some ([some 0x4024000000000000#64, some 0xC000000000000000#64, some 0xC000000000000000#64,
          some 0xC000000000000000#64],
        [some 0x0000000000000000#64, some 0x4000000000000000#64, some 0x0000000000000000#64,
          some 0xC000000000000000#64]) := by decide +kernel

/-- F4. -/
theorem test_fft_8 :
    buffersAfter 8 (State.running
      (loaded 8 (0x0000000000000000#64 :: 0x3FF0000000000000#64 :: zeros 6) (zeros 8)) (.fft 8)) =
      some ([some 0x3FF0000000000000#64, some 0x3FE6A09E667F3BCD#64, some 0x0000000000000000#64,
          some 0xBFE6A09E667F3BCD#64, some 0xBFF0000000000000#64, some 0xBFE6A09E667F3BCD#64,
          some 0x0000000000000000#64, some 0x3FE6A09E667F3BCD#64],
        [some 0x0000000000000000#64, some 0xBFE6A09E667F3BCD#64, some 0xBFF0000000000000#64,
          some 0xBFE6A09E667F3BCD#64, some 0x0000000000000000#64, some 0x3FE6A09E667F3BCD#64,
          some 0x3FF0000000000000#64, some 0x3FE6A09E667F3BCD#64]) := by decide +kernel

/-- L2.8: after F2, MAG 4 writes 2.5 and √8/2. -/
theorem test_mag_4 :
    magnitudesAfter 4 (State.running (loaded 4
      [0x4024000000000000#64, 0xC000000000000000#64] [0x0000000000000000#64, 0x4000000000000000#64]) (.mag 4)) =
      some [some 0x4004000000000000#64, some 0x3FF6A09E667F3BCD#64, none, none] := by decide +kernel

/-- L2.8: the square of 1e−160 is subnormal, and 1e200's overflows. -/
theorem test_magnitude_corners :
    bits64 0 (magnitude 4 1 (f64 0x1EB67E9C127B6E74#64) (f64 0#64)) = 0x1EA67E93DDBC0E73#64 ∧
    bits64 0 (magnitude 4 1 (f64 0x6974E718D7D7625A#64) (f64 0#64)) = 0x7FF0000000000000#64 ∧
    bits64 0 (magnitude 4 1 (f64 0x8000000000000000#64) (f64 0x8000000000000000#64)) = 0#64 ∧
    magnitude 4 1 (f64 0x7FF0000000000000#64) (f64 0x7FF8000000000000#64) = .nan := by decide +kernel

/-- L2.9: ANALYZE 4 of four ones, IMAG holding no value at all. -/
theorem test_analyze_4 :
    statusAndSize (State.running (loaded 8 (List.replicate 4 0x3FF0000000000000#64) []) (.analyze 4)) =
      some (0x0000000000060002#64, 0x0000000200000004#64) ∧
    magnitudesAfter 2 (State.running (loaded 8 (List.replicate 4 0x3FF0000000000000#64) []) (.analyze 4)) =
      some [some 0x3FF0000000000000#64, some 0x0000000000000000#64] := by decide +kernel

/-- L2.9, third row: ANALYZE 4 of four −3 gives |c| = 3 (C2), and REAL = [−12, 0, 0, 0]. -/
theorem test_analyze_of_a_negative_constant :
    magnitudesAfter 2 (State.running (loaded 8 (List.replicate 4 0xC008000000000000#64) (zeros 8)) (.analyze 4)) =
      some [some 0x4008000000000000#64, some 0x0000000000000000#64] ∧
    (buffersAfter 4 (State.running (loaded 8 (List.replicate 4 0xC008000000000000#64) (zeros 8)) (.analyze 4))).map
      Prod.fst = some [some 0xC028000000000000#64, some 0#64, some 0#64, some 0#64] := by decide +kernel

/-! ## The butterfly primitive (L2.5) -/

/-- The four results of a butterfly on patterns, in R135's order. -/
def butterflyPatterns (ar ai br bi c s : Word) : List (Option Word) :=
  let r := butterfly (some (f64 c), some (f64 s)) (some (f64 ar), some (f64 ai)) (some (f64 br), some (f64 bi))
  [r.1.1, r.1.2, r.2.1, r.2.2].map (Option.map (bits64 0xFFFFFFFFFFFFFFFF#64))

/-- V4 and V7: a signed zero, and rounding at W_8^3. -/
theorem test_butterfly_v4_v7 :
    butterflyPatterns 0#64 0#64 0x8000000000000000#64 0#64 0x3FF0000000000000#64 0#64 =
      [some 0#64, some 0#64, some 0#64, some 0#64] ∧
    butterflyPatterns 0x3FF0000000000000#64 0x3FF0000000000000#64 0x3FF0000000000000#64 0x3FF0000000000000#64
      0xBFE6A09E667F3BCD#64 0x3FE6A09E667F3BCD#64 =
      [some 0x3FF0000000000000#64, some 0xBFDA827999FCEF34#64, some 0x3FF0000000000000#64,
        some 0x4003504F333F9DE6#64] := by decide +kernel

/-- V5, V6 and V9: ∞ · 0, overflow in the sum only, and subnormals. -/
theorem test_butterfly_v5_v6_v9 :
    butterflyPatterns 0x3FF0000000000000#64 0#64 0x7FF0000000000000#64 0#64 0x3FF0000000000000#64 0#64 =
      [some 0x7FF0000000000000#64, some 0xFFFFFFFFFFFFFFFF#64, some 0xFFF0000000000000#64,
        some 0xFFFFFFFFFFFFFFFF#64] ∧
    butterflyPatterns 0x7FEFFFFFFFFFFFFF#64 0#64 0x7FEFFFFFFFFFFFFF#64 0#64 0x3FF0000000000000#64 0#64 =
      [some 0x7FF0000000000000#64, some 0#64, some 0#64, some 0#64] ∧
    butterflyPatterns 1#64 0#64 1#64 0#64 0x3FE6A09E667F3BCD#64 0x3FE6A09E667F3BCD#64 =
      [some 2#64, some 0x8000000000000001#64, some 0#64, some 1#64] := by decide +kernel

/-- L2.4: rows of the reference ROM. -/
theorem test_reference_rom :
    [0, 1, 2, 512, 1024, 1536, 2047].map (fun q => (referenceRomc[q]?, referenceRoms[q]?)) =
      [(some 0x3FF0000000000000#64, some 0x0000000000000000#64), (some 0x3FEFFFFD88586EE6#64, some 0x3F5921FAAEE6472E#64),
       (some 0x3FEFFFF621621D02#64, some 0x3F6921F8BECCA4BA#64), (some 0x3FE6A09E667F3BCD#64, some 0x3FE6A09E667F3BCD#64),
       (some 0x0000000000000000#64, some 0x3FF0000000000000#64), (some 0xBFE6A09E667F3BCD#64, some 0x3FE6A09E667F3BCD#64),
       (some 0xBFEFFFFD88586EE6#64, some 0x3F5921FAAEE6472E#64)] := by decide +kernel

/-- R133's procedure against rev, size 8 (R132: [0,4,2,6,1,5,3,7]). -/
theorem test_counter_and_permutation :
    counterPermute 8 (List.range 8) = [0, 4, 2, 6, 1, 5, 3, 7] ∧ permute 3 (List.range 8) = [0, 4, 2, 6, 1, 5, 3, 7] := by
  decide +kernel

/-! ## Host transactions, interrupt and reset (L2.3, L2.10) -/

theorem test_bus_reads :
    answers State.reset (.read 0x00#23 8) = some [readOkay 0x00000C0146465432#64] ∧
    answers idle (.read 0x0C#23 8) = some [readError] ∧ answers idle (.read 0x08#23 4) = some [readError] ∧
    answers idle (.read 0x28#23 8) = some [readError] ∧ answers State.reset (.read 0x108000#23 8) = some [readError] ∧
    answers State.reset (.read 0x404000#23 8) = some [readError] := by decide +kernel

theorem test_bus_access_while_busy :
    answers (State.running idle .nop) (.read 0x400000#23 8) = some [readOkay 0x3FF0000000000000#64] ∧
    answers (State.running idle .nop) (.write 0x100000#23 8 0#64) = some [writeError] ∧
    answers idle (.write 0x400000#23 8 0#64) = some [writeError] := by decide +kernel

/-- L2.3: 1.0 at BASE + 0x100000 … +7 is the bytes 00 00 00 00 00 00 F0 3F. -/
theorem test_buffer_write_byte_order :
    (after (step (State.asked idle (.write 0x100000#23 8 0x3FF0000000000000#64)))).map
      (fun t => (List.range 8).map (fun b => t.hostByte (0x900000 + b))) =
      some [some 0x00#8, some 0x00#8, some 0x00#8, some 0x00#8, some 0x00#8, some 0x00#8, some 0xF0#8, some 0x3F#8] := by
  decide +kernel

theorem test_status_write_clears :
    (after (step (State.asked
      { idle with status := { busy := false, done := true, err := true, errcode := .lengthMismatch, curOp := 1#8 } }
      (.write 0x08#23 8 0x0000000000000006#64)))).map (fun t => t.status.word) = some 0x0000000000010000#64 := by
  decide +kernel

theorem test_ctrl_write_keeps_two_bits :
    (after (step (State.asked idle (.write 0x10#23 8 0xFFFFFFFFFFFFFFFF#64)))).map (fun t => t.ctrl.word) =
      some 0x0000000000000003#64 := by decide +kernel

/-- L2.10: reset while a command is pending. -/
theorem test_reset_abandons_the_command :
    (after (step { State.running (loaded 8 oneToFour (zeros 4)) (.fft 8) with schedule := [.rst true] })).map
      (fun t => (t.status.word, t.size.word, t.ctrl.word, t.mem.isEmpty, t.pending.isNone)) =
      some (0#64, 0#64, 0#64, true, true) := by decide +kernel

/-- R66 for registers and ROM entries: ID's magic is at BASE .. BASE + 3, little-endian, and ROMC[0] = 1.0 ends in
F0 3F. -/
theorem test_register_and_rom_bytes :
    [0, 1, 2, 3, 4, 5, 6, 7].map (fun b => State.reset.hostByte (State.reset.cfg.base + b)) =
      [some 0x32#8, some 0x54#8, some 0x46#8, some 0x46#8, some 0x01#8, some 0x0C#8, some 0x00#8, some 0x00#8] ∧
    (idle.hostByte 0xC00006, idle.hostByte 0xC00007) = (some 0xF0#8, some 0x3F#8) ∧ idle.hostByte 0x800028 = none := by
  decide +kernel

/-- R222: with nobody named and a transaction waiting, a command whose delay is used up completes. -/
theorem test_delay_used_up :
    (after (step { State.asked (idle.accept (.config 8)) (.read 0x08#23 8) with schedule := [], delay := 0 })).map
      (fun t => (t.status.word, t.requests.length)) = some (0x0000000000010002#64, 1) := by decide +kernel

/-! ## Witnesses: hypotheses that can be met, clause by clause

Each theorem exhibits states and operands that meet the hypotheses of the statement it is named after, at the edges of
the ranges where a clause has one. -/

/-- A CMD write of w waits at the idle block. -/
def cmdWrite (w : Word) : State := State.asked idle (.write 0x20#23 8 w)

/-- A CMD write of w waits at the block while NOP is pending. -/
def cmdWriteWhileBusy (w : Word) : State := State.asked (idle.accept .nop) (.write 0x20#23 8 w)

/-- The engine's turn at a block of size n holding one to four. -/
def engineTurn (n : Nat) : State := { loaded n oneToFour (zeros 4) with turn := .engine }

theorem witness_DecodeOfEncodeIsTheCommand :
    ∃ i j : Instr, i.wellFormed = true ∧ i = .analyze 4294967295 ∧ j.wellFormed = true ∧ j = .bitrev 0 :=
  ⟨_, _, by decide, rfl, by decide, rfl⟩

theorem witness_EncodeOfDecodeIsTheWord :
    decode 0xFFFFFFFF00000006#64 = .ok (.analyze 4294967295) ∧ decode 0x0000000000000002#64 = .ok (.bitrev 0) := by
  decide

/-- One witness for each reason of R93, idle and busy. -/
theorem witness_IllegalWordsAreRejected :
    ((cmdWrite 0x0000000000000007#64).presents 0x0000000000000007#64 ∧
      decode 0x0000000000000007#64 = .error .reservedOpcode) ∧
    ((cmdWriteWhileBusy 0x00000000000000FF#64).presents 0x00000000000000FF#64 ∧
      decode 0x00000000000000FF#64 = .error .reservedOpcode ∧
      (cmdWriteWhileBusy 0x00000000000000FF#64).status.busy = true) ∧
    ((cmdWrite 0x0000000080000000#64).presents 0x0000000080000000#64 ∧
      decode 0x0000000080000000#64 = .error .reservedBits) ∧
    ((cmdWrite 0x0000000100000000#64).presents 0x0000000100000000#64 ∧
      decode 0x0000000100000000#64 = .error .nopWithLength) :=
  ⟨⟨⟨rfl, .inl rfl, rfl⟩, by decide⟩, ⟨⟨rfl, .inl rfl, rfl⟩, by decide, rfl⟩, ⟨⟨rfl, .inl rfl, rfl⟩, by decide⟩,
    ⟨⟨rfl, .inl rfl, rfl⟩, by decide⟩⟩

theorem witness_CmdWriteRunsTheDecodedCommand :
    (cmdWrite 0x0000000800000006#64).presents 0x0000000800000006#64 ∧
      decode 0x0000000800000006#64 = .ok (.analyze 8) := ⟨⟨rfl, .inl rfl, rfl⟩, by decide⟩

/-- The three ways in which the engine moves: named, alone, and with its delay used up. -/
theorem witness_EngineStepRunsThePendingCommand :
    ∃ s t u : State, (s.rst = false ∧ s.pending = some (.config 8) ∧ s.engineMoves ∧ s.requests.length = 1) ∧
      (t.rst = false ∧ t.pending = some (.config 8) ∧ t.engineMoves ∧ t.requests = []) ∧
      (u.rst = false ∧ u.pending = some (.config 8) ∧ u.engineMoves ∧ u.requests.length = 1 ∧ u.schedule = []) :=
  ⟨{ idle.accept (.config 8) with schedule := [.engine], requests := [.read 0x08#23 8] }, idle.accept (.config 8),
    { idle.accept (.config 8) with delay := 0, requests := [.read 0x08#23 8] },
    ⟨rfl, rfl, .inl rfl, rfl⟩, ⟨rfl, rfl, .inr ⟨rfl, .inl rfl⟩, rfl⟩, ⟨rfl, rfl, .inr ⟨rfl, .inr rfl⟩, rfl, rfl⟩⟩

/-- The smallest and the largest size, a length-checked command, and NOP. -/
theorem witness_CheckedCommandIsAccepted :
    idle.turn = .host ∧ idle.status.busy = false ∧ validSize idle.cfg 2 = true ∧ validSize idle.cfg 8 = true ∧
      checksLength (.config 8) = false ∧ checksLength (.fft 8) = true ∧ validSize (loaded 8 [] []).cfg 8 = true ∧
      (loaded 8 [] []).size.n = 8 ∧ (loaded 8 [] []).turn = .host ∧ (loaded 8 [] []).status.busy = false := by
  decide +kernel

/-- Each rejection: BUSY, ILLEGAL_COMMAND, INVALID_SIZE below, between and above the sizes, NOT_CONFIGURED,
LENGTH_MISMATCH. -/
theorem witness_RejectionReportsTheFirstFailedCheck :
    ((cmdWriteWhileBusy 0#64).presents 0#64 ∧ (cmdWriteWhileBusy 0#64).status.busy = true) ∧
    ((cmdWrite 0x07#64).presents 0x07#64 ∧ (cmdWrite 0x07#64).status.busy = false ∧
      decode 0x07#64 = .error .reservedOpcode) ∧
    (decode 0x0000000100000006#64 = .ok (.analyze 1) ∧ validSize small 1 = false ∧ validSize small 0 = false ∧
      validSize small 3 = false ∧ validSize small 16 = false) ∧
    (decode 0x0000000200000005#64 = .ok (.mag 2) ∧ validSize small 2 = true ∧ checksLength (.mag 2) = true ∧
      idle.size.n = 0) ∧
    (validSize small 8 = true ∧ (loaded 4 [] []).size.n ≠ 0 ∧ 8 ≠ (loaded 4 [] []).size.n) :=
  ⟨⟨⟨rfl, .inl rfl, rfl⟩, rfl⟩, ⟨⟨rfl, .inl rfl, rfl⟩, rfl, by decide⟩, by decide +kernel, by decide +kernel, by decide +kernel⟩

theorem witness_NopCompletesWithNoOtherEffect : (engineTurn 4).turn = .engine := rfl
theorem witness_ConfigCompletesBySettingSize : (engineTurn 4).turn = .engine := rfl
theorem witness_FftIsBitrevThenBfly : (engineTurn 4).turn = .engine := rfl

/-- The hypotheses of every data command, at the smallest and the largest size of the small block; the index and
address ranges of the clauses at their ends. -/
theorem witness_data_command :
    (engineTurn 4).turn = .engine ∧ (engineTurn 4).cfg.log2nMax ≤ 17 ∧ validSize (engineTurn 4).cfg 2 = true ∧
      validSize (engineTurn 4).cfg 8 = true ∧ 7 < 8 ∧ ¬ inWindow realBase 8 0x100040 ∧ ¬ inWindow imagBase 8 0x100040 ∧
      ¬ inWindow realBase 8 0x0FFFFF ∧ ¬ inWindow imagBase 8 0x0FFFFF := by
  simp only [inWindow, realBase, imagBase]
  decide +kernel

theorem witness_BitrevMovesElementsToReversedIndices :
    ∃ (n : Nat) (s : State), s.turn = .engine ∧ s.cfg.log2nMax ≤ 17 ∧ validSize s.cfg n = true ∧ n = 4 ∧
      Memory.readWord s.mem (realBase + 8 * 3) = some 0x4010000000000000#64 :=
  ⟨4, engineTurn 4, by decide +kernel⟩

theorem witness_BflyStoresTheNetworksResults :
    ∃ (n : Nat) (s : State), s.turn = .engine ∧ s.cfg.log2nMax ≤ 17 ∧ validSize s.cfg n = true ∧ n = 4 ∧
      s.samples 4 ≠ [] := ⟨4, engineTurn 4, by decide +kernel⟩

theorem witness_FftFrame :
    ∃ (n : Nat) (s : State), s.turn = .engine ∧ s.cfg.log2nMax ≤ 17 ∧ validSize s.cfg n = true ∧ n = 8 :=
  ⟨8, engineTurn 8, by decide +kernel⟩

/-- A bin that holds a value and one that holds none. -/
theorem witness_MagStoresTheMagnitudes :
    ∃ (n : Nat) (s : State), s.turn = .engine ∧ s.cfg.log2nMax ≤ 17 ∧ validSize s.cfg n = true ∧ n = 4 ∧
      Memory.readWord s.mem (realBase + 8 * 0) = some 0x3FF0000000000000#64 ∧
      Memory.readWord s.mem (imagBase + 8 * 0) = some 0x0000000000000000#64 ∧
      Memory.readWord s.mem (imagBase + 8 * 1) = none :=
  ⟨4, { loaded 4 oneToFour (zeros 1) with turn := .engine }, by decide +kernel⟩

theorem witness_AnalyzeIsConfigZeroFftMag :
    ∃ (n : Nat) (s : State), s.turn = .engine ∧ s.cfg.log2nMax ≤ 17 ∧ validSize s.cfg n = true ∧ n = 8 ∧
      s.size.n = 4 := ⟨8, engineTurn 4, by decide +kernel⟩

theorem witness_AnalyzeFrame :
    ∃ (n : Nat) (s : State), s.turn = .engine ∧ s.cfg.log2nMax ≤ 17 ∧ validSize s.cfg n = true ∧ n = 2 :=
  ⟨2, engineTurn 4, by decide +kernel⟩

theorem witness_RevReadsTheBitsInReverse : 7 < 2 ^ 3 ∧ 2 < 3 ∧ 0 < 2 ^ 0 ∧ rev 3 7 = 7 := by decide
theorem witness_PermuteMovesToTheReversedIndex : ["a", "b", "c", "d"].length = 2 ^ 2 ∧ 3 < 2 ^ 2 := by decide
theorem witness_IncrementalCounterComputesThePermutation : 1 ≤ 1 ∧ ["a", "b"].length = 2 ^ 1 := by decide

/-- The last block and the last offset of the first and of the last stage of size 4. -/
theorem witness_StageAppliesEachButterflyToItsPair :
    (1 ≤ 1 ∧ 1 ≤ 2 ∧ oneToFour.length = 2 ^ 2 ∧ 1 < 2 ^ 2 / 2 ^ 1 ∧ 0 < 2 ^ 1 / 2) ∧
    (1 ≤ 2 ∧ 2 ≤ 2 ∧ 0 < 2 ^ 2 / 2 ^ 2 ∧ 1 < 2 ^ 2 / 2) := by decide

/-- The second stage of size 4, its butterflies in the opposite order. -/
theorem witness_StageResultIsIndependentOfOrder :
    ∃ order : List (Nat × Nat), order.Perm (stagePairs (2 ^ 2) (2 ^ 2)) ∧ order ≠ stagePairs (2 ^ 2) (2 ^ 2) :=
  ⟨[(1, 1), (0, 0)], List.Perm.swap _ _ _, by decide⟩

theorem witness_ExactNetworkComputesTheDft : 1 ≤ 1 ∧ [(1 : ℂ), 2].length = 2 ^ 1 ∧ (1 : ℕ) < 2 ^ 1 :=
  ⟨le_rfl, rfl, by decide⟩

/-- The smallest and the largest size, the last index of each. -/
theorem witness_TwiddleViewIsStrided :
    small.wf = true ∧ validSize small 2 = true ∧ 0 < 2 / 2 ∧ validSize small 8 = true ∧ 3 < 8 / 2 := by decide +kernel

/-- A subnormal, a zero with a sign, an infinity and a normal number. -/
theorem witness_PatternOfValueIsThePattern :
    f64 1#64 ≠ .nan ∧ f64 0x8000000000000000#64 ≠ .nan ∧ f64 0x7FF0000000000000#64 ≠ .nan ∧
      f64 0x7FEFFFFFFFFFFFFF#64 ≠ .nan := by decide +kernel

/-- Half a unit lies between 0 and 1 units: a tie. -/
theorem witness_RoundingIsToNearestTiesToEven :
    ∃ p q : Nat, 0 < q ∧ Representable 1 ∧ 1 ≠ nearestUnits p q ∧ 2 * (p * unitsOfOne) = q :=
  ⟨1, 2 * unitsOfOne, by unfold unitsOfOne; exact Nat.mul_pos Nat.two_pos (Nat.two_pow_pos _), ⟨1, 0, by decide, rfl⟩, by unfold nearestUnits unitsOfOne; decide +kernel,
    by omega⟩

/-- A sum and a difference that are not zero and ones that are, a product and a quotient, each with its fraction. -/
theorem witness_RoundingIsToNearestTiesToEven_operations :
    (exactValue false (2 ^ 1074) + exactValue true (3 * 2 ^ 1074) ≠ 0 ∧
      ((2 : ℕ) : ℚ) / ((1 : ℕ) : ℚ) = |exactValue false (2 ^ 1074) + exactValue true (3 * 2 ^ 1074)|) ∧
    exactValue false 1 + exactValue true 1 = 0 ∧ exactValue true 0 - exactValue false 0 = 0 ∧
    (exactValue false (2 ^ 1074) - exactValue true 0 ≠ 0 ∧
      ((5 : ℕ) : ℚ) / ((5 : ℕ) : ℚ) = |exactValue false (2 ^ 1074) - exactValue true 0|) ∧
    ((6 : ℕ) : ℚ) / ((1 : ℕ) : ℚ) = |exactValue false (2 * 2 ^ 1074) * exactValue true (3 * 2 ^ 1074)| ∧
    (3 * 2 ^ 1074 ≠ 0 ∧
      ((2 : ℕ) : ℚ) / ((3 : ℕ) : ℚ) = |exactValue false (2 * 2 ^ 1074) / exactValue true (3 * 2 ^ 1074)|) := by
  decide +kernel

theorem witness_SquareRootIsNearest : 0 < 2 ∧ 2 < overflowUnits ∧ 0 < 2 ^ 2098 - 1 ∧ 2 ^ 2098 - 1 < overflowUnits := by
  unfold overflowUnits; decide +kernel

theorem witness_DefaultResultsOfSpecialOperands : overflowUnits ≤ nearestUnits (2 ^ 1024) 1 := by
  unfold overflowUnits nearestUnits unitsOfOne; decide +kernel

theorem witness_IdReadsItsFieldsAndRefusesWrites :
    (State.asked State.reset (.read 0x00#23 8)).serves (.read 0x00#23 8) ∧ State.reset.cfg.log2nMax = 12 ∧
      (State.asked idle (.write 0x00#23 8 1#64)).serves (.write 0x00#23 8 1#64) :=
  ⟨⟨rfl, .inl rfl, rfl⟩, rfl, ⟨rfl, .inl rfl, rfl⟩⟩

theorem witness_StatusReadsItsFieldsAndClearsOnOnes :
    (State.asked idle (.read 0x08#23 8)).serves (.read 0x08#23 8) ∧
      (State.asked idle (.write 0x08#23 8 6#64)).serves (.write 0x08#23 8 6#64) :=
  ⟨⟨rfl, .inl rfl, rfl⟩, ⟨rfl, .inl rfl, rfl⟩⟩

theorem witness_CtrlHoldsItsTwoEnables :
    (State.asked idle (.read 0x10#23 8)).serves (.read 0x10#23 8) ∧
      (State.asked (idle.accept .nop) (.write 0x10#23 8 3#64)).serves (.write 0x10#23 8 3#64) :=
  ⟨⟨rfl, .inl rfl, rfl⟩, ⟨rfl, .inl rfl, rfl⟩⟩

theorem witness_SizeAndCmdAccesses :
    (State.asked idle (.read 0x18#23 8)).serves (.read 0x18#23 8) ∧
      (State.asked idle (.write 0x18#23 8 4#64)).serves (.write 0x18#23 8 4#64) ∧
      (State.asked idle (.read 0x20#23 8)).serves (.read 0x20#23 8) ∧ (cmdWrite 7#64).presents 7#64 :=
  ⟨⟨rfl, .inl rfl, rfl⟩, ⟨rfl, .inl rfl, rfl⟩, ⟨rfl, .inl rfl, rfl⟩, ⟨rfl, .inl rfl, rfl⟩⟩

/-- Every state and transaction of these shapes is served: idle or busy with the host named, and idle with nobody
named. So each cause of a bus error below can occur. -/
theorem witness_serves (r : Request) :
    (State.asked idle r).serves r ∧ (State.asked (idle.accept .nop) r).serves r ∧
      { idle with requests := [r] }.serves r :=
  ⟨⟨rfl, .inl rfl, rfl⟩, ⟨rfl, .inl rfl, rfl⟩, ⟨rfl, .inr ⟨rfl, rfl⟩, rfl⟩⟩

/-- Each cause of a bus error, the ranges at both ends. -/
theorem witness_BusErrorsChangeNothing :
    idle.cfg.log2nMax ≤ 17 ∧ (4 : Nat) ≠ 8 ∧ (0x0C#23).toNat % 8 ≠ 0 ∧ unmappedOffset small (0x28#23).toNat ∧
      unmappedOffset small (0x0FFFF8#23).toNat ∧ unmappedOffset small (0x100040#23).toNat ∧
      unmappedOffset small (0x1FFFF8#23).toNat ∧ unmappedOffset small (0x300020#23).toNat ∧
      unmappedOffset small (0x5FFFF8#23).toNat ∧ unmappedOffset small (0x7FFFF8#23).toNat ∧
      (idle.accept .nop).status.busy = true ∧ bufferOffset small (0x100000#23).toNat ∧
      bufferOffset small (0x300018#23).toNat ∧ (0x00#23).toNat = 0x00 ∧ (0x18#23).toNat = 0x18 ∧
      0x400000 ≤ (0x400000#23).toNat ∧ (0x5FFFF8#23).toNat < 0x600000 := by
  simp only [unmappedOffset, bufferOffset, Config.nMax]
  refine ⟨?_, ?_, ?_, ?_, ?_, ?_, ?_, ?_, ?_, ?_, ?_, ?_, ?_, ?_, ?_, ?_, ?_⟩ <;> decide +kernel

/-- The first element of REAL and the last of IMAG. -/
theorem witness_BufferWriteStoresTheWord :
    (State.asked idle (.write 0x100000#23 8 1#64)).serves (.write 0x100000#23 8 1#64) ∧ idle.status.busy = false ∧
      bufferOffset idle.cfg (0x100000#23).toNat ∧
      (State.asked idle (.write 0x200038#23 8 1#64)).serves (.write 0x200038#23 8 1#64) ∧
      bufferOffset idle.cfg (0x200038#23).toNat ∧ idle.cfg.log2nMax ≤ 17 := by
  refine ⟨⟨rfl, .inl rfl, rfl⟩, rfl, ?_, ⟨rfl, .inl rfl, rfl⟩, ?_, by decide⟩ <;>
    simp only [bufferOffset, Config.nMax] <;> decide +kernel

/-- An element that holds a value and one that holds none. -/
theorem witness_BufferReadAnswersTheElement :
    (State.asked (loaded 4 oneToFour []) (.read 0x100018#23 8)).serves (.read 0x100018#23 8) ∧
      bufferOffset small (0x100018#23).toNat ∧
      Memory.readWord (loaded 4 oneToFour []).mem (0x100018#23).toNat = some 0x4010000000000000#64 ∧
      (State.asked (loaded 4 oneToFour []) (.read 0x300018#23 8)).serves (.read 0x300018#23 8) ∧
      bufferOffset small (0x300018#23).toNat ∧
      Memory.readWord (loaded 4 oneToFour []).mem (0x300018#23).toNat = none ∧
      (loaded 4 oneToFour []).status.busy = false := by
  refine ⟨⟨rfl, .inl rfl, rfl⟩, ?_, by decide +kernel, ⟨rfl, .inl rfl, rfl⟩, ?_, by decide +kernel, rfl⟩ <;>
    simp only [bufferOffset, Config.nMax] <;> decide +kernel

/-- The first entry of ROMC and the last of ROMS. -/
theorem witness_RomReadsAnswerTheEntry :
    (State.asked idle (.read 0x400000#23 8)).serves (.read 0x400000#23 8) ∧ 0 < small.nMax / 2 ∧
      (0x400000#23).toNat = 0x400000 + 8 * 0 ∧ small.romc[0]? = some 0x3FF0000000000000#64 ∧
      (State.asked idle (.read 0x500018#23 8)).serves (.read 0x500018#23 8) ∧ 3 < small.nMax / 2 ∧
      (0x500018#23).toNat = 0x500000 + 8 * 3 ∧ small.roms[3]? = some 0x3FE6A09E667F3BCD#64 :=
  ⟨⟨rfl, .inl rfl, rfl⟩, by decide, by decide, by decide, ⟨rfl, .inl rfl, rfl⟩, by decide, by decide, by decide⟩

theorem witness_ReadsChangeNoState :
    (State.asked idle (.read 0x7FFFFF#23 3)).serves (.read 0x7FFFFF#23 3) := ⟨rfl, .inl rfl, rfl⟩

/-- A step that takes a transaction. -/
theorem witness_TransactionsAreAnsweredInOrder :
    ∃ s t : State, step s = .next t ∧ t.requests ≠ s.requests :=
  ⟨State.asked idle (.read 0x20#23 8), _, rfl, by decide +kernel⟩

/-- A completion; a rejection for BUSY and for ILLEGAL_COMMAND; the operand conditions of the three other codes. -/
theorem witness_IrqFollowsStatusAndCtrl :
    (∃ s t : State, s.turn = .engine ∧ s.ctrl.ieDone = true ∧ exec .nop s = .next t) ∧
    (∃ s t : State, s.presents 7#64 ∧ s.ctrl.ieErr = true ∧ s.status.busy = true ∧ step s = .next t) ∧
    (∃ s t : State, s.presents 7#64 ∧ s.ctrl.ieErr = true ∧ s.status.busy = false ∧
      decode 7#64 = .error .reservedOpcode ∧ step s = .next t) ∧
    (decode 0x0000000300000001#64 = .ok (.config 3) ∧ validSize small 3 = false) ∧
    (decode 0x0000000800000005#64 = .ok (.mag 8) ∧ checksLength (.mag 8) = true ∧ idle.size.n = 0 ∧
      8 ≠ (loaded 4 [] []).size.n) :=
  ⟨⟨{ idle with turn := .engine, ctrl := { ieDone := true, ieErr := false } }, _, rfl, rfl, rfl⟩,
    ⟨{ cmdWriteWhileBusy 7#64 with ctrl := { ieDone := false, ieErr := true } }, _, ⟨rfl, .inl rfl, rfl⟩, rfl, rfl, rfl⟩,
    ⟨{ cmdWrite 7#64 with ctrl := { ieDone := false, ieErr := true } }, _, ⟨rfl, .inl rfl, rfl⟩, rfl, rfl, by decide,
      rfl⟩, by decide +kernel, by decide +kernel⟩

/-- rst becomes asserted, stays so, and deasserts. -/
theorem witness_ResetInputTakesTheResetState :
    ∃ s t u : State, s.schedule.head? = some (.rst true) ∧ s.rst = false ∧ s.pending = some .nop ∧
      t.schedule.head? = some (.rst true) ∧ t.rst = true ∧ u.schedule.head? = some (.rst false) ∧ u.rst = true :=
  ⟨{ idle.accept .nop with schedule := [.rst true] }, { idle with schedule := [.rst true], rst := true },
    { idle with schedule := [.rst false], rst := true }, rfl, rfl, rfl, rfl, rfl, rfl, rfl⟩

/-- Both values of RESET_BUS_RESPONSE. -/
theorem witness_NoTransactionDuringReset :
    ∃ (s t : State) (r : Request),
      (s.rst = true ∧ s.schedule.head? = some .host ∧ s.requests.head? = some r ∧ s.cfg.resetBus = .stall) ∧
      (t.rst = true ∧ t.schedule.head? = some .host ∧ t.requests.head? = some r ∧ t.cfg.resetBus = .error) :=
  ⟨{ cmdWrite 0#64 with rst := true }, { cmdWrite 0#64 with rst := true, cfg := { small with resetBus := .error } },
    .write 0x20#23 8 0#64, ⟨rfl, rfl, rfl, rfl⟩, ⟨rfl, rfl, rfl, rfl⟩⟩

theorem witness_ResetMeetsTheInvariant : small.wf = true := by decide +kernel

/-- A state with a pending command meets the invariant, and steps. -/
theorem witness_StepKeepsTheInvariant : ∃ s t : State, s.Inv ∧ s.pending = some (.analyze 8) ∧ step s = .next t := by
  refine ⟨State.running idle (.analyze 8), _, ?_, rfl, rfl⟩
  constructor
  · decide +kernel
  · decide +kernel
  · intro c hc
    exact absurd hc List.not_mem_nil
  · intro a
    rfl
  · rfl
  · intro _
    rfl
  · decide +kernel
  · exact .inl ⟨rfl, rfl⟩
  · intro i hi
    cases hi
    rfl
  · intro i hi
    cases hi
    decide +kernel
  · intro h
    exact absurd h (by decide +kernel)

theorem witness_RomAndIdNeverChange : ∃ s t : State, step s = .next t ∧ t ≠ s :=
  ⟨State.asked idle (.read 0x20#23 8), _, rfl, by decide +kernel⟩

/-- CONFIG's completion, and reset. -/
theorem witness_OnlyConfigAndAnalyzeWriteSize :
    (∃ s t : State, step s = .next t ∧ t.size ≠ s.size ∧ s.pending = some (.config 8)) ∧
    (∃ s t : State, step s = .next t ∧ t.size ≠ s.size ∧ s.resets) :=
  ⟨⟨State.running idle (.config 8), _, rfl, by decide +kernel, rfl⟩,
    ⟨{ loaded 8 [] [] with schedule := [.rst true] }, _, rfl, by decide +kernel, .inr rfl⟩⟩

/-- A completion, a host write and a reset that each change a byte. -/
theorem witness_BuffersChangeOnlyByCompletionWriteOrReset :
    (∃ s t : State, step s = .next t ∧ Memory.readByte t.mem 0x100008 ≠ Memory.readByte s.mem 0x100008 ∧
      s.pending = some (.bitrev 4)) ∧
    (∃ s t : State, step s = .next t ∧ Memory.readByte t.mem 0x100007 ≠ Memory.readByte s.mem 0x100007 ∧
      s.status.busy = false) ∧
    (∃ s t : State, step s = .next t ∧ Memory.readByte t.mem 0x100007 ≠ Memory.readByte s.mem 0x100007 ∧ s.resets) :=
  ⟨⟨State.running (loaded 4 [1#64, 2#64, 3#64, 4#64] []) (.bitrev 4), _, rfl, by decide +kernel, rfl⟩,
    ⟨State.asked idle (.write 0x100000#23 8 0x3FF0000000000000#64), _, rfl, by decide +kernel, rfl⟩,
    ⟨{ loaded 4 oneToFour [] with schedule := [.rst true] }, _, rfl, by decide +kernel, .inr rfl⟩⟩

/-- A busy block: its host is rejected, its command completes, it is reset. -/
theorem witness_OnlyCompletionOrResetEndsACommand :
    ∃ s t u : State, (s.status.busy = true ∧ s.pending = some .nop ∧ ∃ s', step s = .next s' ∧ s'.status.busy = true) ∧
      (t.status.busy = true ∧ t.pending = some (.config 8) ∧ ∃ t', step t = .next t' ∧ t'.status.busy = false) ∧
      (u.status.busy = true ∧ u.pending = some .nop ∧ ∃ u', step u = .next u' ∧ u'.pending = none) :=
  ⟨cmdWriteWhileBusy 0#64, State.running idle (.config 8), { idle.accept .nop with schedule := [.rst true] },
    ⟨rfl, rfl, _, rfl, rfl⟩, ⟨rfl, rfl, _, rfl, rfl⟩, ⟨rfl, rfl, _, rfl, rfl⟩⟩

/-- A STATUS write that clears both flags, and an acceptance that clears DONE. -/
theorem witness_FlagsAreClearedOnlyAsStated :
    ∃ s t u v : State, (step s = .next t ∧ s.status.err = true ∧ t.status.err = false ∧ s.status.done = true ∧
        t.status.done = false) ∧
      (step u = .next v ∧ u.status.done = true ∧ v.status.done = false ∧ v.pending = some .nop) :=
  ⟨State.asked { idle with status := { busy := false, done := true, err := true, errcode := .busy, curOp := 0#8 } }
      (.write 0x08#23 8 6#64), _,
    { cmdWrite 0#64 with status := { busy := false, done := true, err := false, errcode := .none, curOp := 0#8 } }, _,
    ⟨rfl, rfl, rfl, rfl, rfl⟩, ⟨rfl, rfl, rfl, rfl⟩⟩

theorem witness_EitherOrderCanHappen :
    ∃ s : State, s.rst = false ∧ s.status.busy = true ∧ s.pending = some .nop ∧
      s.requests.head? = some (.write 0x20#23 8 0#64) := ⟨cmdWriteWhileBusy 0#64, rfl, rfl, rfl, rfl⟩

theorem witness_PendingCommandCompletes :
    ∃ s : State, s.status.busy = true ∧ s.pending = some .nop ∧ s.rst = false ∧
      (∀ level, Tick.rst level ∉ s.schedule) ∧ s.schedule.length = 1 ∧ s.requests.length = 1 :=
  ⟨cmdWriteWhileBusy 0#64, rfl, rfl, rfl, by decide, rfl, rfl⟩

/-- The state of a run that only the model's own steps move, from NOP pending. -/
def quietRun : Nat → State
  | 0 => idle.accept .nop
  | k + 1 => (after (step (quietRun k))).getD idle

/-- A fed run that meets the hypotheses of both endless clauses: from the second state on nothing is enabled, and it
stays as it is. -/
theorem witness_PendingCommandCompletes_fed :
    FedRun (fun _ => []) (fun _ => []) quietRun ∧ FairRun (fun _ => []) (fun _ => []) quietRun ∧
      (quietRun 0).status.busy = true ∧ (quietRun 0).pending = some .nop ∧ (quietRun 0).rst = false ∧
      ∀ k level, Tick.rst level ∉ ((quietRun k).arrive [] []).schedule := by
  have later : ∀ k, quietRun (k + 1) = quietRun 1 := by
    intro k
    induction k with
    | zero => rfl
    | succ k ih => rw [quietRun, ih]; rfl
  have quiet : ∀ k, (quietRun k).requests = [] ∧ (quietRun k).schedule = [] := by
    intro k
    cases k with
    | zero => exact ⟨rfl, rfl⟩
    | succ k => rw [later]; exact ⟨rfl, rfl⟩
  refine ⟨?_, fun k => ⟨k, le_rfl, .inr ⟨?_, .inl ?_⟩⟩, rfl, rfl, rfl, ?_⟩
  · intro k
    cases k with
    | zero => rfl
    | succ k => rw [later (k + 1), later k]; rfl
  · simp [State.arrive, (quiet k).2]
  · simp [State.arrive, (quiet k).1]
  · intro k level
    simp [State.arrive, (quiet k).2]

end Sys2Proof.Tests
end

section
/-! PROOF. Rounding once to nearest, ties to even (`00_scope.md` R9): the numbers with a significand of at most 53 bits
cut the line into cells, and the rounded number is the nearer end of the cell that holds the exact value. -/

namespace Sys2Proof.Machine

/-! ## The two irreducible numbers -/

theorem unitsOfOne_eq : unitsOfOne = 2 ^ 1074 := by unfold unitsOfOne; rfl

theorem overflowUnits_eq : overflowUnits = 2 ^ 2098 := by unfold overflowUnits; rfl

theorem unitsOfOne_pos : 0 < unitsOfOne := by
  rw [unitsOfOne_eq]
  exact pow_pos Nat.two_pos _

theorem unitsOfOne_cast : (unitsOfOne : ℚ) = 2 ^ 1074 := by
  rw [unitsOfOne_eq, Nat.cast_pow, Nat.cast_ofNat]

/-! ## Cells -/

/-- k · 2^x as binary64 writes it: k fits 53 bits, and uses the 53rd where anything is left out below. -/
structure IsSignificand (k x : Nat) : Prop where
  lt : k < 2 ^ 53
  full : x = 0 ∨ 2 ^ 52 ≤ k

/-- n/q lies in the cell from k · 2^x to (k + 1) · 2^x. -/
structure IsCell (n q k x : Nat) : Prop extends IsSignificand k x where
  low : k * 2 ^ x * q ≤ n
  high : n < (k + 1) * 2 ^ x * q

/-- u is the end of the cell that is nearer to n/q, or as near and of even significand. -/
def IsNearerEnd (n q k x u : Nat) : Prop :=
  (u = k * 2 ^ x ∧ (2 * n < (2 * k + 1) * 2 ^ x * q ∨ 2 * n = (2 * k + 1) * 2 ^ x * q ∧ k % 2 = 0)) ∨
  (u = (k + 1) * 2 ^ x ∧ ((2 * k + 1) * 2 ^ x * q < 2 * n ∨ 2 * n = (2 * k + 1) * 2 ^ x * q ∧ (k + 1) % 2 = 0))

theorem IsSignificand.excessBits_eq {k x : Nat} (h : IsSignificand k x) : excessBits (k * 2 ^ x) = x := by
  obtain ⟨hlt, rfl | hfull⟩ := h
  · rcases Nat.eq_zero_or_pos k with rfl | hk
    · rfl
    · have := (Nat.log2_lt hk.ne').2 hlt
      simp only [excessBits, pow_zero, mul_one]
      omega
  · have hlog : Nat.log2 (k * 2 ^ x) = 52 + x := by
      rw [Nat.log2_eq_iff (Nat.mul_ne_zero (by omega) (Nat.two_pow_pos x).ne')]
      constructor
      · rw [pow_add]
        exact Nat.mul_le_mul_right _ hfull
      · rw [add_right_comm, pow_add]
        exact Nat.mul_lt_mul_of_pos_right hlt (Nat.two_pow_pos x)
    rw [excessBits, hlog, Nat.add_sub_cancel_left]

theorem representable_mul_two_pow {k : Nat} (x : Nat) (h : k ≤ 2 ^ 53) : Representable (k * 2 ^ x) := by
  rcases h.lt_or_eq with hlt | rfl
  · exact ⟨k, x, hlt, rfl⟩
  · exact ⟨1, 53 + x, by decide, by rw [one_mul, pow_add]⟩

/-- No representable number lies inside a cell. -/
theorem Representable.le_or_le {v k x : Nat} (hv : Representable v) (h : IsSignificand k x) :
    v ≤ k * 2 ^ x ∨ (k + 1) * 2 ^ x ≤ v := by
  obtain ⟨j, y, hj, rfl⟩ := hv
  by_cases hxy : x ≤ y
  · obtain ⟨z, rfl⟩ := Nat.exists_eq_add_of_le hxy
    have hgrid : j * 2 ^ (x + z) = j * 2 ^ z * 2 ^ x := by ring
    rw [hgrid]
    exact (Nat.lt_or_ge k (j * 2 ^ z)).symm.imp (Nat.mul_le_mul_right _) (Nat.mul_le_mul_right _)
  · have hk : 2 ^ 52 ≤ k := h.full.resolve_left (by omega)
    left
    calc j * 2 ^ y ≤ 2 ^ 53 * 2 ^ y := Nat.mul_le_mul_right _ hj.le
      _ = 2 ^ 52 * 2 ^ (y + 1) := by ring
      _ ≤ k * 2 ^ x := Nat.mul_le_mul hk (Nat.pow_le_pow_right Nat.two_pos (by omega))

/-- The cell that `nearestUnits` works in. -/
theorem isCell_excessBits (n : Nat) {q : Nat} (hq : 0 < q) :
    IsCell n q (n / (q * 2 ^ excessBits (n / q))) (excessBits (n / q)) where
  lt := by
    rw [← Nat.div_div_eq_div_mul, Nat.div_lt_iff_lt_mul (Nat.two_pow_pos _), ← pow_add]
    exact Nat.lt_log2_self.trans_le (Nat.pow_le_pow_right Nat.two_pos (by unfold excessBits; omega))
  full := by
    rcases Nat.eq_zero_or_pos (excessBits (n / q)) with h0 | hpos
    · exact .inl h0
    · have hlog : 52 + excessBits (n / q) = Nat.log2 (n / q) := by unfold excessBits at hpos ⊢; omega
      have hne : n / q ≠ 0 := by intro h; simp [h, excessBits] at hpos
      rw [← Nat.div_div_eq_div_mul, Nat.le_div_iff_mul_le (Nat.two_pow_pos _), ← pow_add, hlog]
      exact .inr (Nat.log2_self_le hne)
  low := by
    rw [mul_assoc, mul_comm (2 ^ _) q]
    exact Nat.div_mul_le_self _ _
  high := by
    rw [mul_assoc, mul_comm (2 ^ _) q, mul_comm]
    exact Nat.lt_mul_div_succ _ (Nat.mul_pos hq (Nat.two_pow_pos _))

/-- What `nearestUnits` computes. -/
theorem nearestUnits_isNearerEnd (p : Nat) {q : Nat} (hq : 0 < q) :
    ∃ k x, IsCell (p * unitsOfOne) q k x ∧ IsNearerEnd (p * unitsOfOne) q k x (nearestUnits p q) := by
  refine ⟨_, _, isCell_excessBits _ hq, ?_⟩
  simp only [nearestUnits, IsNearerEnd]
  generalize p * unitsOfOne = n
  generalize excessBits (n / q) = x
  have hdiv : q * 2 ^ x * (n / (q * 2 ^ x)) + n % (q * 2 ^ x) = n := Nat.div_add_mod _ _
  generalize n / (q * 2 ^ x) = k at hdiv ⊢
  generalize n % (q * 2 ^ x) = r at hdiv ⊢
  have hmid : (2 * k + 1) * 2 ^ x * q = 2 * (q * 2 ^ x * k) + q * 2 ^ x := by ring
  rw [hmid]
  generalize q * 2 ^ x * k = low at hdiv ⊢
  generalize q * 2 ^ x = d at hdiv ⊢
  split
  · exact .inl ⟨rfl, by omega⟩
  · exact .inr ⟨rfl, by omega⟩

/-! ## The nearer end is the nearest number -/

/-- The nearer end of an interval is at least as near as anything outside it. -/
theorem abs_nearer_end_le {α : Type} [CommRing α] [LinearOrder α] [IsStrictOrderedRing α] {lo hi c u v : α}
    (hlo : lo ≤ c) (hhi : c ≤ hi) (hu : (u = lo ∧ 2 * c ≤ lo + hi) ∨ (u = hi ∧ lo + hi ≤ 2 * c))
    (hv : v ≤ lo ∨ hi ≤ v) : |u - c| ≤ |v - c| := by
  have hdist : |u - c| ≤ c - lo ∧ |u - c| ≤ hi - c := by
    rcases hu with ⟨rfl, hc⟩ | ⟨rfl, hc⟩
    · rw [abs_of_nonpos (by linarith)]
      constructor <;> linarith
    · rw [abs_of_nonneg (by linarith)]
      constructor <;> linarith
  rcases hv with hv | hv
  · exact hdist.1.trans (by rw [abs_of_nonpos (by linarith)]; linarith)
  · exact hdist.2.trans ((by linarith : hi - c ≤ v - c).trans (le_abs_self _))

/-- Another point outside the interval is as near only where the exact value is its middle. -/
theorem middle_of_abs_eq {α : Type} [CommRing α] [LinearOrder α] [IsStrictOrderedRing α] {lo hi c u v : α}
    (hlo : lo ≤ c) (hhi : c ≤ hi) (hu : (u = lo ∧ 2 * c ≤ lo + hi) ∨ (u = hi ∧ lo + hi ≤ 2 * c))
    (hv : v ≤ lo ∨ hi ≤ v) (hne : v ≠ u) (heq : |u - c| = |v - c|) : 2 * c = lo + hi := by
  rcases abs_eq_abs.1 heq with h | h
  · exact absurd (by linarith) hne
  · rcases hu with ⟨rfl, hc⟩ | ⟨rfl, hc⟩ <;> rcases hv with hv | hv
    · exact absurd (by linarith) hne
    · linarith
    · linarith
    · exact absurd (by linarith) hne

section
variable {n q k x u : Nat} (cell : IsCell n q k x) (near : IsNearerEnd n q k x u)
include cell near

theorem IsNearerEnd.representable : Representable u := by
  obtain ⟨rfl, -⟩ | ⟨rfl, -⟩ := near
  · exact representable_mul_two_pow x cell.lt.le
  · exact representable_mul_two_pow x cell.lt

omit cell in
/-- The nearer end, with n the exact value and the numbers multiplied by q. -/
theorem IsNearerEnd.cast_mul :
    (((u * q : ℕ) : ℤ) = (k * 2 ^ x * q : ℕ) ∧ 2 * (n : ℤ) ≤ (k * 2 ^ x * q : ℕ) + ((k + 1) * 2 ^ x * q : ℕ)) ∨
    (((u * q : ℕ) : ℤ) = ((k + 1) * 2 ^ x * q : ℕ) ∧
      ((k * 2 ^ x * q : ℕ) + ((k + 1) * 2 ^ x * q : ℕ) : ℤ) ≤ 2 * n) := by
  have hmid : k * 2 ^ x * q + (k + 1) * 2 ^ x * q = (2 * k + 1) * 2 ^ x * q := by ring
  norm_cast
  rw [hmid]
  obtain ⟨rfl, h⟩ | ⟨rfl, h⟩ := near
  · exact .inl ⟨rfl, by omega⟩
  · exact .inr ⟨rfl, by omega⟩

omit near in
theorem IsCell.outside_mul {v : Nat} (hv : Representable v) :
    ((v * q : ℕ) : ℤ) ≤ (k * 2 ^ x * q : ℕ) ∨ (((k + 1) * 2 ^ x * q : ℕ) : ℤ) ≤ (v * q : ℕ) := by
  norm_cast
  exact (hv.le_or_le cell.toIsSignificand).imp (Nat.mul_le_mul_right q) (Nat.mul_le_mul_right q)

theorem IsNearerEnd.nearest {v : Nat} (hv : Representable v) :
    |((u * q : ℕ) : ℤ) - (n : ℤ)| ≤ |((v * q : ℕ) : ℤ) - (n : ℤ)| :=
  abs_nearer_end_le (mod_cast cell.low) (mod_cast cell.high.le) near.cast_mul (cell.outside_mul hv)

end

/-- An even significand stays even where the carry gives it a 54th bit. -/
theorem even_significand {k x : Nat} (hk : k ≤ 2 ^ 53) (hfull : x = 0 ∨ 2 ^ 52 ≤ k) (heven : k % 2 = 0) :
    k * 2 ^ x / 2 ^ excessBits (k * 2 ^ x) % 2 = 0 := by
  rcases hk.lt_or_eq with hlt | rfl
  · rw [IsSignificand.excessBits_eq ⟨hlt, hfull⟩, Nat.mul_div_cancel _ (Nat.two_pow_pos x)]
    exact heven
  · have hcarry : 2 ^ 53 * 2 ^ x = 2 ^ 52 * 2 ^ (x + 1) := by ring
    rw [hcarry, IsSignificand.excessBits_eq ⟨by decide, .inr le_rfl⟩, Nat.mul_div_cancel _ (Nat.two_pow_pos _)]
    rfl

/-- In the middle of a cell the even significand is taken. -/
theorem IsNearerEnd.even_of_middle {n q k x u : Nat} (cell : IsCell n q k x) (near : IsNearerEnd n q k x u)
    (hmid : 2 * n = (2 * k + 1) * 2 ^ x * q) : u / 2 ^ excessBits u % 2 = 0 := by
  obtain ⟨rfl, h⟩ | ⟨rfl, h⟩ := near
  · exact even_significand cell.lt.le cell.full (by omega)
  · exact even_significand cell.lt (cell.full.imp_right Nat.le_succ_of_le) (by omega)

/-- Where another representable number is as near, the rounded one has the even significand. -/
theorem IsNearerEnd.ties_to_even {n q k x u v : Nat} (hq : 0 < q) (cell : IsCell n q k x)
    (near : IsNearerEnd n q k x u) (hv : Representable v) (hne : v ≠ u)
    (htie : |((u * q : ℕ) : ℤ) - (n : ℤ)| = |((v * q : ℕ) : ℤ) - (n : ℤ)|) : u / 2 ^ excessBits u % 2 = 0 := by
  have hne' : ((v * q : ℕ) : ℤ) ≠ (u * q : ℕ) := mod_cast fun h => hne (Nat.eq_of_mul_eq_mul_right hq h)
  have hmid := middle_of_abs_eq (mod_cast cell.low) (mod_cast cell.high.le) near.cast_mul (cell.outside_mul hv)
    hne' htie
  norm_cast at hmid
  exact near.even_of_middle cell (hmid.trans (by ring))

/-- A representable exact value is its own rounding. -/
theorem nearestUnits_eq_of_exact {p q v : Nat} (hq : 0 < q) (hv : Representable v) (h : p * unitsOfOne = v * q) :
    nearestUnits p q = v := by
  obtain ⟨k, x, cell, near⟩ := nearestUnits_isNearerEnd p hq
  have hle := near.nearest cell hv
  rw [h, sub_self, abs_zero, abs_nonpos_iff, sub_eq_zero] at hle
  exact Nat.eq_of_mul_eq_mul_right hq (mod_cast hle)

/-- Rounding does not pass a representable number. -/
theorem nearestUnits_le_of_lt {p q v : Nat} (hq : 0 < q) (hv : Representable v) (h : p * unitsOfOne < v * q) :
    nearestUnits p q ≤ v := by
  obtain ⟨k, x, cell, near⟩ := nearestUnits_isNearerEnd p hq
  have hhi : (k + 1) * 2 ^ x ≤ v :=
    (hv.le_or_le cell.toIsSignificand).resolve_left fun hlo =>
      absurd (cell.low.trans_lt h) (Nat.mul_le_mul_right q hlo).not_gt
  obtain ⟨hu, -⟩ | ⟨hu, -⟩ := near
  · exact hu.trans_le ((Nat.mul_le_mul_right _ k.le_succ).trans hhi)
  · exact hu.trans_le hhi

/-! ## A result depends on the exact value, not on the fraction it is written as -/

theorem nearestUnits_mul_mul (p q : Nat) {c : Nat} (hc : 0 < c) : nearestUnits (p * c) (q * c) = nearestUnits p q := by
  have hn : p * c * unitsOfOne = p * unitsOfOne * c := by ring
  simp only [nearestUnits, hn, Nat.mul_div_mul_right _ _ hc]
  generalize excessBits _ = x
  have hd : q * c * 2 ^ x = q * 2 ^ x * c := by ring
  simp only [hd, Nat.mul_div_mul_right _ _ hc, Nat.mul_mod_mul_right, ← mul_assoc, Nat.mul_lt_mul_right hc,
    Nat.mul_left_inj hc.ne']

theorem nearestUnits_congr {p q p' q' : Nat} (hq : 0 < q) (hq' : 0 < q') (h : p * q' = p' * q) :
    nearestUnits p q = nearestUnits p' q' := by
  rw [← nearestUnits_mul_mul p q hq', ← nearestUnits_mul_mul p' q' hq, h, mul_comm q q']

theorem rounded_congr (neg : Bool) {p q p' q' : Nat} (hq : 0 < q) (hq' : 0 < q') (h : (p : ℚ) / q = p' / q') :
    rounded neg p q = rounded neg p' q' := by
  have hq0 : (q : ℚ) ≠ 0 := mod_cast hq.ne'
  have hq0' : (q' : ℚ) ≠ 0 := mod_cast hq'.ne'
  rw [div_eq_div_iff hq0 hq0'] at h
  unfold rounded
  rw [nearestUnits_congr hq hq' (mod_cast h)]

/-! ## The operations on finite operands -/

/-- 2^l is converted exactly, up to the largest N. -/
theorem ofNat64_two_pow {l : Nat} (hl : l ≤ 17) : ofNat64 (2 ^ l) = .fin false (2 ^ l * unitsOfOne) := by
  have hrep : Representable (2 ^ l * unitsOfOne) := by
    rw [unitsOfOne_eq, ← pow_add, ← one_mul (2 ^ _)]
    exact representable_mul_two_pow _ (by decide)
  have hlt : 2 ^ l * unitsOfOne < overflowUnits := by
    rw [unitsOfOne_eq, overflowUnits_eq, ← pow_add]
    exact pow_lt_pow_right₀ Nat.one_lt_two (by omega)
  unfold ofNat64 rounded
  rw [nearestUnits_eq_of_exact Nat.one_pos hrep (mul_one _).symm]
  exact if_pos hlt

theorem exactValue_eq (s : Bool) (u : Nat) : exactValue s u = (signedUnits s u : ℚ) / unitsOfOne := by
  rw [exactValue, unitsOfOne_cast]

theorem natAbs_signedUnits (s : Bool) (u : Nat) : (signedUnits s u).natAbs = u := by
  cases s <;> simp [signedUnits]

theorem signedUnits_not (s : Bool) (u : Nat) : signedUnits (!s) u = -signedUnits s u := by
  cases s <;> simp [signedUnits]

theorem exactValue_not (s : Bool) (u : Nat) : exactValue (!s) u = -exactValue s u := by
  rw [exactValue, exactValue, signedUnits_not, Int.cast_neg, neg_div]

theorem abs_exactValue (s : Bool) (u : Nat) : |exactValue s u| = (u : ℚ) / unitsOfOne := by
  rw [exactValue_eq, abs_div, Nat.abs_cast, ← Int.cast_abs, Int.abs_eq_natAbs, natAbs_signedUnits, Int.cast_natCast]

theorem exactValue_add (s t : Bool) (u v : Nat) :
    exactValue s u + exactValue t v = ((signedUnits s u + signedUnits t v : ℤ) : ℚ) / unitsOfOne := by
  rw [exactValue_eq, exactValue_eq, ← add_div, Int.cast_add]

/-- fadd rounds the exact sum, with its sign. -/
theorem fadd_fin {s t : Bool} {u v p q : Nat} (hq : 0 < q) (h0 : exactValue s u + exactValue t v ≠ 0)
    (h : (p : ℚ) / q = |exactValue s u + exactValue t v|) :
    fadd (.fin s u) (.fin t v) = rounded (decide (exactValue s u + exactValue t v < 0)) p q := by
  have hpos : (0 : ℚ) < unitsOfOne := mod_cast unitsOfOne_pos
  rw [exactValue_add] at h0 h ⊢
  simp only [fadd]
  generalize signedUnits s u + signedUnits t v = x at h0 h ⊢
  have hx : x ≠ 0 := by rintro rfl; simp at h0
  have hsign : ((x : ℚ) / unitsOfOne < 0) ↔ x < 0 := by rw [div_lt_iff₀ hpos, zero_mul, Int.cast_lt_zero]
  have habs : (p : ℚ) / q = (x.natAbs : ℚ) / unitsOfOne := by
    rw [h, abs_div, Nat.abs_cast, Nat.cast_natAbs, Int.cast_abs]
  rw [rounded_congr _ hq unitsOfOne_pos habs]
  simp only [hx, hsign, if_false]

/-- An exact zero sum. -/
theorem fadd_fin_zero {s t : Bool} {u v : Nat} (h0 : exactValue s u + exactValue t v = 0) :
    fadd (.fin s u) (.fin t v) = .fin (s && t) 0 := by
  have hne : (unitsOfOne : ℚ) ≠ 0 := mod_cast unitsOfOne_pos.ne'
  rw [exactValue_add, div_eq_zero_iff, or_iff_left hne, Int.cast_eq_zero] at h0
  exact if_pos h0

theorem fmul_fin {s t : Bool} {u v p q : Nat} (hq : 0 < q) (h : (p : ℚ) / q = |exactValue s u * exactValue t v|) :
    fmul (.fin s u) (.fin t v) = rounded (s ^^ t) p q := by
  refine (rounded_congr _ hq (Nat.mul_pos unitsOfOne_pos unitsOfOne_pos) ?_).symm
  rw [h, abs_mul, abs_exactValue, abs_exactValue, div_mul_div_comm, Nat.cast_mul, Nat.cast_mul]

theorem fdiv_fin {s t : Bool} {u v p q : Nat} (hq : 0 < q) (hv : v ≠ 0)
    (h : (p : ℚ) / q = |exactValue s u / exactValue t v|) :
    fdiv (.fin s u) (.fin t v) = rounded (s ^^ t) p q := by
  have hne : (unitsOfOne : ℚ) ≠ 0 := mod_cast unitsOfOne_pos.ne'
  refine (if_neg hv).trans (rounded_congr _ hq (Nat.pos_of_ne_zero hv) ?_).symm
  rw [h, abs_div, abs_exactValue, abs_exactValue, div_div_div_cancel_right₀ hne]

/-- Settles O33: the rounded number is the nearer end of a cell of representable numbers, the even one in the middle,
and the operations round their exact results. -/
theorem roundingIsToNearestTiesToEven : Obligations.RoundingIsToNearestTiesToEven := by
  refine ⟨fun p q hq => ?_, fun neg p q h => if_pos h, fun l hl => ofNat64_two_pow hl, ?_⟩
  · obtain ⟨k, x, cell, near⟩ := nearestUnits_isNearerEnd p hq
    exact ⟨near.representable cell, fun u hu => ⟨near.nearest cell hu, near.ties_to_even hq cell hu⟩⟩
  · intro s t u v p q hq
    have hsub : exactValue s u - exactValue t v = exactValue s u + exactValue (!t) v := by
      rw [exactValue_not, sub_eq_add_neg]
    dsimp only
    rw [hsub]
    exact ⟨fadd_fin hq, fadd_fin_zero, fadd_fin hq, fadd_fin_zero, fmul_fin hq, fdiv_fin hq⟩

end Sys2Proof.Machine
end

section
/-! PROOF. The square root (`00_scope.md` R9): its fraction lies on the same side of every end and middle of a cell as
the exact root does, so rounding the fraction rounds the root. -/

namespace Sys2Proof.Machine

theorem isqrtLoop_eq_sqrt {n : Nat} (b r : Nat) (hlow : r * r ≤ n) (hhigh : n < (r + 2 ^ b) * (r + 2 ^ b)) :
    isqrtLoop n b r = Nat.sqrt n := by
  induction b generalizing r with
  | zero => exact Nat.eq_sqrt.2 ⟨hlow, hhigh⟩
  | succ b ih =>
    have hstep : r + 2 ^ b + 2 ^ b = r + 2 ^ (b + 1) := by ring
    unfold isqrtLoop
    split
    · next h => exact ih _ h (hstep ▸ hhigh)
    · next h => exact ih _ hlow (Nat.lt_of_not_le h)

theorem isqrt_eq_sqrt (n : Nat) : isqrt n = Nat.sqrt n := by
  refine isqrtLoop_eq_sqrt _ _ (Nat.zero_le _) ?_
  rw [Nat.zero_add, ← pow_add]
  exact Nat.lt_log2_self.trans_le (Nat.pow_le_pow_right Nat.two_pos (by omega))

/-- The numerator of the root's fraction compares with every even number as twice the exact root of u · 4^55 does. -/
theorem two_mul_le_sqrtFraction {u j : Nat} : 2 * j ≤ (sqrtFraction u).1 ↔ j * j ≤ u * 4 ^ 55 := by
  simp only [sqrtFraction, isqrt_eq_sqrt]
  generalize u * 4 ^ 55 = n
  rw [← Nat.le_sqrt]
  split <;> omega

theorem sqrtFraction_le_two_mul {u j : Nat} : (sqrtFraction u).1 ≤ 2 * j ↔ u * 4 ^ 55 ≤ j * j := by
  simp only [sqrtFraction, isqrt_eq_sqrt]
  generalize u * 4 ^ 55 = n
  split
  · next hexact =>
    rw [Nat.add_zero, Nat.mul_le_mul_left_iff Nat.two_pos, ← Nat.mul_self_le_mul_self_iff, hexact]
  · next hinexact =>
    have hne : n ≠ j * j := fun h => hinexact ((Nat.exists_mul_self n).1 ⟨j, h.symm⟩)
    have hlt := Nat.sqrt_lt (m := n) (n := j)
    omega

/-- The exact root of u units, in units (`00_scope.md` R9). -/
noncomputable def exactRoot (u : Nat) : ℝ := Real.sqrt ((u : ℝ) * 2 ^ 1074)

theorem exactRoot_nonneg (u : Nat) : 0 ≤ exactRoot u := Real.sqrt_nonneg _

theorem exactRoot_sq (u : Nat) : exactRoot u ^ 2 = ((u * 4 ^ 55 : ℕ) : ℝ) * (2 ^ 482) ^ 2 := by
  have hfour : (4 : ℝ) ^ 55 = 2 ^ 110 := by norm_num
  rw [exactRoot, Real.sq_sqrt (by positivity), Nat.cast_mul, Nat.cast_pow, Nat.cast_ofNat, hfour, mul_assoc, ← pow_mul,
    ← pow_add]

theorem le_exactRoot {u j : Nat} : (j : ℝ) * 2 ^ 482 ≤ exactRoot u ↔ j * j ≤ u * 4 ^ 55 := by
  rw [← sq_le_sq₀ (by positivity) (exactRoot_nonneg u), exactRoot_sq, mul_pow, mul_le_mul_iff_left₀ (by positivity),
    ← Nat.cast_pow, Nat.cast_le, sq]

theorem exactRoot_le {u j : Nat} : exactRoot u ≤ (j : ℝ) * 2 ^ 482 ↔ u * 4 ^ 55 ≤ j * j := by
  rw [← sq_le_sq₀ (exactRoot_nonneg u) (by positivity), exactRoot_sq, mul_pow, mul_le_mul_iff_left₀ (by positivity),
    ← Nat.cast_pow, Nat.cast_le, sq]

theorem sqrtFraction_snd_pos (u : Nat) : 0 < (sqrtFraction u).2 := by
  unfold sqrtFraction
  exact pow_pos Nat.two_pos 593

theorem sqrtFraction_exact (u : Nat) :
    (sqrtFraction u).1 * unitsOfOne = (sqrtFraction u).1 * 2 ^ 481 * (sqrtFraction u).2 := by
  rw [mul_assoc, unitsOfOne_eq, sqrtFraction, ← pow_add]

/-- A multiple of 2^482, written for the comparison with the fraction and for that with the root. -/
theorem exists_eq_of_dvd {w : Nat} (hw : 2 ^ 482 ∣ w) : ∃ j : Nat, w = 2 * j * 2 ^ 481 ∧ (w : ℝ) = j * 2 ^ 482 := by
  obtain ⟨j, hj⟩ := hw
  refine ⟨j, ?_, ?_⟩
  · rw [hj, mul_comm 2 j, mul_assoc, ← pow_succ' 2 481, mul_comm]
  · rw [hj, Nat.cast_mul, Nat.cast_pow, Nat.cast_ofNat, mul_comm]

/-- A multiple of 2^482 is on the same side of the fraction as of the exact root. -/
theorem mul_le_sqrtFraction_iff {u w : Nat} (hw : 2 ^ 482 ∣ w) :
    w * (sqrtFraction u).2 ≤ (sqrtFraction u).1 * unitsOfOne ↔ (w : ℝ) ≤ exactRoot u := by
  obtain ⟨j, hj, hcast⟩ := exists_eq_of_dvd hw
  rw [hcast, le_exactRoot, ← two_mul_le_sqrtFraction, sqrtFraction_exact, hj,
    Nat.mul_le_mul_right_iff (sqrtFraction_snd_pos u), Nat.mul_le_mul_right_iff (pow_pos Nat.two_pos 481)]

theorem sqrtFraction_le_mul_iff {u w : Nat} (hw : 2 ^ 482 ∣ w) :
    (sqrtFraction u).1 * unitsOfOne ≤ w * (sqrtFraction u).2 ↔ exactRoot u ≤ (w : ℝ) := by
  obtain ⟨j, hj, hcast⟩ := exists_eq_of_dvd hw
  rw [hcast, exactRoot_le, ← sqrtFraction_le_two_mul, sqrtFraction_exact, hj,
    Nat.mul_le_mul_right_iff (sqrtFraction_snd_pos u), Nat.mul_le_mul_right_iff (pow_pos Nat.two_pos 481)]

/-- The cell of the fraction is so wide that its ends and its middle are multiples of 2^482. -/
theorem IsCell.exponent_ge_of_sqrtFraction {u k x : Nat} (hu : 0 < u)
    (cell : IsCell ((sqrtFraction u).1 * unitsOfOne) (sqrtFraction u).2 k x) : 483 ≤ x := by
  have hm : 2 ^ 56 ≤ (sqrtFraction u).1 := two_mul_le_sqrtFraction (j := 2 ^ 55).2 (by omega)
  have hhigh := cell.high
  rw [sqrtFraction_exact] at hhigh
  have hpow : 2 ^ (56 + 481) < 2 ^ (53 + x) :=
    calc 2 ^ (56 + 481) = 2 ^ 56 * 2 ^ 481 := pow_add _ _ _
      _ ≤ (sqrtFraction u).1 * 2 ^ 481 := Nat.mul_le_mul_right _ hm
      _ < (k + 1) * 2 ^ x := Nat.lt_of_mul_lt_mul_right hhigh
      _ ≤ 2 ^ 53 * 2 ^ x := Nat.mul_le_mul_right _ cell.lt
      _ = 2 ^ (53 + x) := (pow_add _ _ _).symm
  have := (Nat.pow_lt_pow_iff_right Nat.one_lt_two).1 hpow
  omega

/-- The rounded fraction is the end of the cell nearer to the exact root. -/
theorem exactRoot_near_end {u k x w : Nat} (hx : 483 ≤ x)
    (near : IsNearerEnd ((sqrtFraction u).1 * unitsOfOne) (sqrtFraction u).2 k x w) :
    ((w : ℝ) = (k * 2 ^ x : ℕ) ∧ 2 * exactRoot u ≤ (k * 2 ^ x : ℕ) + ((k + 1) * 2 ^ x : ℕ)) ∨
    ((w : ℝ) = ((k + 1) * 2 ^ x : ℕ) ∧ ((k * 2 ^ x : ℕ) + ((k + 1) * 2 ^ x : ℕ) : ℝ) ≤ 2 * exactRoot u) := by
  obtain ⟨y, rfl⟩ : ∃ y, x = y + 1 := ⟨x - 1, by omega⟩
  have hdvd : 2 ^ 482 ∣ (2 * k + 1) * 2 ^ y := (pow_dvd_pow 2 (by omega)).mul_left _
  have hmid : (2 * k + 1) * 2 ^ (y + 1) = 2 * ((2 * k + 1) * 2 ^ y) := by rw [pow_succ]; ring
  have hsum : ((k * 2 ^ (y + 1) : ℕ) + ((k + 1) * 2 ^ (y + 1) : ℕ) : ℝ) = 2 * ((2 * k + 1) * 2 ^ y : ℕ) := by
    push_cast
    ring
  rw [hsum, mul_le_mul_iff_right₀ two_pos, mul_le_mul_iff_right₀ two_pos, ← sqrtFraction_le_mul_iff hdvd,
    ← mul_le_sqrtFraction_iff hdvd]
  rw [IsNearerEnd, hmid, mul_assoc 2] at near
  obtain ⟨rfl, h⟩ | ⟨rfl, h⟩ := near
  · exact .inl ⟨rfl, by omega⟩
  · exact .inr ⟨rfl, by omega⟩

theorem sqrtFraction_le_two_pow {u e : Nat} (hu : u ≤ 2 ^ (2 * e)) : (sqrtFraction u).1 ≤ 2 ^ (e + 56) := by
  have hpow : 2 ^ (e + 56) = 2 * 2 ^ (e + 55) := pow_succ' 2 (e + 55)
  rw [hpow, sqrtFraction_le_two_mul]
  calc u * 4 ^ 55 ≤ 2 ^ (2 * e) * 4 ^ 55 := Nat.mul_le_mul_right _ hu
    _ = 2 ^ (e + 55) * 2 ^ (e + 55) := by ring

/-- The root of a number of units below 2^(2e) is rounded to at most 2^(e + 538) units, one bit more than it has. -/
theorem nearestUnits_sqrtFraction_le {u e : Nat} (hu : u ≤ 2 ^ (2 * e)) :
    nearestUnits (sqrtFraction u).1 (sqrtFraction u).2 ≤ 1 * 2 ^ (e + 538) := by
  refine nearestUnits_le_of_lt (sqrtFraction_snd_pos u) (representable_mul_two_pow _ (by decide)) ?_
  rw [sqrtFraction_exact]
  refine Nat.mul_lt_mul_of_pos_right ?_ (sqrtFraction_snd_pos u)
  calc (sqrtFraction u).1 * 2 ^ 481 ≤ 2 ^ (e + 56) * 2 ^ 481 := Nat.mul_le_mul_right _ (sqrtFraction_le_two_pow hu)
    _ = 2 ^ (e + 537) := (pow_add 2 (e + 56) 481).symm
    _ < 2 ^ (e + 538) := Nat.pow_lt_pow_right Nat.one_lt_two (Nat.lt_succ_self _)
    _ = 1 * 2 ^ (e + 538) := (one_mul _).symm

/-- The root of a finite number is far below the overflow threshold. -/
theorem nearestUnits_sqrtFraction_lt {u : Nat} (hu : u < overflowUnits) :
    nearestUnits (sqrtFraction u).1 (sqrtFraction u).2 < overflowUnits := by
  have hover : overflowUnits = 2 ^ (2 * 1049) := overflowUnits_eq.trans (congrArg (2 ^ ·) rfl)
  refine (nearestUnits_sqrtFraction_le (hover ▸ hu.le)).trans_lt ?_
  rw [hover, one_mul]
  exact pow_lt_pow_right₀ Nat.one_lt_two (by decide)

theorem fsqrt_fin {u : Nat} (hu : 0 < u) :
    fsqrt (.fin false u) = rounded false (sqrtFraction u).1 (sqrtFraction u).2 := by
  simp only [fsqrt, hu.ne', if_false, Bool.false_eq_true]

/-- Settles O34: the fraction that `fsqrt` rounds lies in the same half of the same cell as the exact root. -/
theorem squareRootIsNearest : Obligations.SquareRootIsNearest := by
  intro u hu hlt
  obtain ⟨k, x, cell, near⟩ := nearestUnits_isNearerEnd (sqrtFraction u).1 (sqrtFraction_snd_pos u)
  have hx := cell.exponent_ge_of_sqrtFraction hu
  have hgrid (j : Nat) : 2 ^ 482 ∣ j * 2 ^ x := (pow_dvd_pow 2 (by omega)).mul_left j
  refine ⟨nearestUnits (sqrtFraction u).1 (sqrtFraction u).2, ?_, near.representable cell, fun v hv => ?_⟩
  · rw [fsqrt_fin hu]
    exact if_pos (nearestUnits_sqrtFraction_lt hlt)
  · rw [← exactRoot]
    exact abs_nearer_end_le ((mul_le_sqrtFraction_iff (hgrid k)).1 cell.low)
      ((sqrtFraction_le_mul_iff (hgrid (k + 1))).1 cell.high.le) (exactRoot_near_end hx near)
      ((hv.le_or_le cell.toIsSignificand).imp Nat.cast_le.2 Nat.cast_le.2)

end Sys2Proof.Machine
end

section
/-! PROOF. Patterns and values (`00_scope.md` R8), the default results (R5, R9) and the valid sizes (R6). -/

namespace Sys2Proof.Machine

/-! ## Patterns -/

/-- The exponent field, bits [62:52]. -/
def exponentField (w : Word) : Nat := w.toNat / 2 ^ 52 % 2048

/-- The fraction field, bits [51:0]. -/
def fractionField (w : Word) : Nat := w.toNat % 2 ^ 52

theorem fractionField_lt (w : Word) : fractionField w < 2 ^ 52 := Nat.mod_lt _ (Nat.two_pow_pos 52)

theorem f64_of_exponent_max {w : Word} (h : exponentField w = 2047) :
    f64 w = if fractionField w = 0 then .inf (w.getLsbD 63) else .nan := if_pos h

theorem f64_of_exponent_zero {w : Word} (h : exponentField w = 0) : f64 w = .fin (w.getLsbD 63) (fractionField w) :=
  (if_neg (h.trans_ne (by decide))).trans (if_pos h)

theorem f64_of_normal {w : Word} (hmax : exponentField w ≠ 2047) (h0 : exponentField w ≠ 0) :
    f64 w = .fin (w.getLsbD 63) ((2 ^ 52 + fractionField w) * 2 ^ (exponentField w - 1)) :=
  (if_neg hmax).trans (if_neg h0)

/-- A pattern is its sign, its exponent field and its fraction. -/
theorem ofNat_fields (w : Word) :
    BitVec.ofNat 64 (signBit (w.getLsbD 63) + (exponentField w * 2 ^ 52 + fractionField w)) = w := by
  have hlt := w.isLt
  have hfields : signBit (w.getLsbD 63) + (exponentField w * 2 ^ 52 + fractionField w) = w.toNat := by
    rw [BitVec.getLsbD, Nat.testBit_eq_decide_div_mod_eq, signBit, exponentField, fractionField]
    simp only [decide_eq_true_eq]
    split <;> omega
  rw [hfields, BitVec.ofNat_toNat, BitVec.setWidth_eq]

/-- The fields of the pattern of a finite value. -/
theorem bits64_fin (nanPattern : Word) (neg : Bool) {k x : Nat} (h : IsSignificand k x) :
    bits64 nanPattern (.fin neg (k * 2 ^ x)) = BitVec.ofNat 64 (signBit neg + (x * 2 ^ 52 + k)) := by
  rw [bits64, h.excessBits_eq, Nat.mul_div_cancel _ (Nat.two_pow_pos x)]

/-- Settles O31: an infinity, a zero or subnormal number, and a normal number, each put together from its fields. -/
theorem patternOfValueIsThePattern : Obligations.PatternOfValueIsThePattern := by
  intro nanPattern w hnan
  have hfrac := fractionField_lt w
  refine Eq.trans ?_ (ofNat_fields w)
  by_cases hmax : exponentField w = 2047
  · have hinf : fractionField w = 0 := by
      by_contra h
      exact hnan ((f64_of_exponent_max hmax).trans (if_neg h))
    rw [f64_of_exponent_max hmax, if_pos hinf, hmax, hinf]
    rfl
  by_cases h0 : exponentField w = 0
  · have hpat := bits64_fin nanPattern (w.getLsbD 63) (k := fractionField w) (x := 0) ⟨by omega, .inl rfl⟩
    rw [pow_zero, mul_one] at hpat
    rw [f64_of_exponent_zero h0, hpat, h0]
  · have hfields : (exponentField w - 1) * 2 ^ 52 + (2 ^ 52 + fractionField w) =
        exponentField w * 2 ^ 52 + fractionField w := by omega
    rw [f64_of_normal hmax h0, bits64_fin _ _ ⟨by omega, .inr (by omega)⟩, hfields]

theorem exponentField_quietNan (draw : Word) : exponentField (quietNan draw) = 2047 := by
  have hfield (w : Word) : exponentField w = (w.extractLsb' 52 11).toNat := by
    rw [exponentField, BitVec.extractLsb'_toNat, Nat.shiftRight_eq_div_pow]
  have hones : (0x7FF8000000000000#64).extractLsb' 52 11 = BitVec.allOnes 11 := by decide
  rw [hfield, quietNan, BitVec.extractLsb'_or, hones, BitVec.or_allOnes]
  rfl

theorem getLsbD_quietNan_top (draw : Word) : (quietNan draw).getLsbD 51 = true := by
  rw [quietNan, BitVec.getLsbD_or]
  exact Bool.or_true _

theorem fractionField_ne_zero_of_top {w : Word} (h : w.getLsbD 51 = true) : fractionField w ≠ 0 := by
  intro h0
  rw [BitVec.getLsbD, Nat.testBit_eq_decide_div_mod_eq, decide_eq_true_eq] at h
  rw [fractionField] at h0
  omega

/-- Settles O32: the or of `quietNan` sets the whole exponent field and the fraction's top bit. -/
theorem nanResultIsAQuietNan : Obligations.NanResultIsAQuietNan := fun draw =>
  ⟨(f64_of_exponent_max (exponentField_quietNan draw)).trans
      (if_neg (fractionField_ne_zero_of_top (getLsbD_quietNan_top draw))),
    getLsbD_quietNan_top draw⟩

/-! ## Default results -/

/-- Settles O35: each by the operation's own table, the overflow by the comparison in `rounded`. -/
theorem defaultResultsOfSpecialOperands : Obligations.DefaultResultsOfSpecialOperands := by
  refine ⟨fun s => ?_, fun s t => ⟨?_, ?_⟩, fun u hu => ?_, rfl, rfl, fun neg p q h => ?_, fun x => ?_⟩
  · exact if_neg (Bool.eq_not_self s).1
  · simp only [fmul, if_true]
  · simp only [fmul, if_true]
  · exact (if_neg hu.ne').trans (if_pos rfl)
  · exact if_neg h.not_gt
  · cases x <;> exact ⟨rfl, rfl, rfl, rfl, rfl, rfl, rfl, rfl, rfl⟩

/-! ## Valid sizes -/

/-- Settles O8: the L of the size is its binary logarithm. -/
theorem validSizesAreThePowersOfTwo : Obligations.ValidSizesAreThePowersOfTwo := by
  intro c n
  simp only [validSize, Bool.and_eq_true, decide_eq_true_eq, and_assoc]
  constructor
  · rintro ⟨hpow, hlow, hhigh⟩
    exact ⟨Nat.log2 n, hlow, hhigh, hpow.symm⟩
  · rintro ⟨l, hlow, hhigh, rfl⟩
    rw [Nat.log2_two_pow]
    exact ⟨rfl, hlow, hhigh⟩

end Sys2Proof.Machine
end

section
/-! PROOF. What a step leaves, as one inductive of named outcomes (`step_outcome`), and the whole-machine rules of the
registers that follow from it by cases: the parameters, SIZE, the flags (`10_state.md` R27, R31, R32, R36). -/

namespace Sys2Proof.Machine

/-! ## The outcomes of a step -/

/-- What a served transaction leaves, `u` being the state without it. -/
inductive ServeOutcome (u : State) (r : Request) : State → Prop
  /-- An answer, with perhaps a free value drawn for it. -/
  | answered (a : Response) (d : Nat) : ServeOutcome u r { u.respond a with draws := d }
  | statusWritten (v : Word) (hr : r = .write 0x08#23 8 v) :
      ServeOutcome u r { u.respond writeOkay with status := u.status.clearedBy v }
  | ctrlWritten (v : Word) (hr : r = .write 0x10#23 8 v) :
      ServeOutcome u r { u.respond writeOkay with ctrl := ctrlOf v }
  | stored (off : BitVec 23) (v : Word) (hr : r = .write off 8 v) (hidle : u.status.busy = false)
      (haligned : off.toNat % 8 = 0) (hbuffer : target u.cfg off.toNat = .buffer) :
      ServeOutcome u r { u.respond writeOkay with mem := Memory.writeWord u.mem off.toNat v }
  | rejected (w : Word) (e : ErrCode) (hr : r = .write 0x20#23 8 w) (he : e ≠ .none) :
      ServeOutcome u r ({ u.respond writeOkay with turn := .host }.reject e)
  | accepted (w : Word) (i : Instr) (hr : r = .write 0x20#23 8 w) (hidle : u.status.busy = false)
      (hchecked : u.operandError i = none) : ServeOutcome u r ({ u.respond writeOkay with turn := .host }.accept i)

theorem issueIllegal_eq_reject (s : State) : ∃ e, e ≠ .none ∧ s.issueIllegal = s.reject e := by
  unfold State.issueIllegal
  split
  · exact ⟨.busy, by decide, rfl⟩
  · exact ⟨.illegalCommand, by decide, rfl⟩

theorem operandError_ne_some_none (s : State) (i : Instr) : s.operandError i ≠ some .none := fun h => by
  rcases operandError_eq_some h with h | h | h <;> cases h

/-- Issuing a command rejects it with a code or accepts it checked. -/
theorem issue_outcome (s : State) (i : Instr) :
    (∃ e, e ≠ .none ∧ s.issue i = s.reject e) ∨
    (s.status.busy = false ∧ s.operandError i = none ∧ s.issue i = s.accept i) := by
  rcases issue_cases s i with ⟨-, h⟩ | ⟨-, e, he, h⟩ | h
  · exact .inl ⟨.busy, by decide, h⟩
  · exact .inl ⟨e, fun h0 => operandError_ne_some_none s i (h0 ▸ he), h⟩
  · exact .inr h

theorem serve_outcome {u v t : State} {r : Request}
    (h : (u.serve r = (v, none) ∧ t = v) ∨ ∃ i, u.serve r = (v, some i) ∧ exec i v = .next t) :
    ServeOutcome u r t := by
  rcases serve_cases u r with ⟨a, d, hs⟩ | ⟨w, hr, hs⟩ | ⟨w, hr, hs⟩ | ⟨off, w, hr, hidle, hal, hbuf, hs⟩ |
    ⟨w, hr, -, hs⟩ | ⟨w, j, hr, -, hs⟩ <;> rw [hs] at h <;>
    simp only [Prod.mk.injEq, reduceCtorEq, and_true, and_false, false_and, exists_false, or_false, false_or,
      Option.some.injEq] at h
  · obtain ⟨rfl, rfl⟩ := h
    exact .answered a d
  · obtain ⟨rfl, rfl⟩ := h
    exact .statusWritten w hr
  · obtain ⟨rfl, rfl⟩ := h
    exact .ctrlWritten w hr
  · obtain ⟨rfl, rfl⟩ := h
    exact .stored off w hr hidle hal hbuf
  · obtain ⟨hv, rfl⟩ := h
    obtain ⟨e, he, hrej⟩ := issueIllegal_eq_reject { u.respond writeOkay with turn := .host }
    rw [← hv, hrej]
    exact .rejected w e hr he
  · obtain ⟨i, ⟨rfl, rfl⟩, ht⟩ := h
    rw [exec_host _ rfl, Host.Outcome.next.injEq] at ht
    subst ht
    rcases issue_outcome { u.respond writeOkay with turn := .host } j with ⟨e, he, hi⟩ | ⟨hidle, hchecked, hi⟩ <;>
      rw [hi]
    · exact .rejected w e hr he
    · exact .accepted w j hr hidle hchecked

/-- What a step leaves. -/
inductive StepOutcome (s : State) : State → Prop
  | reset (level : Bool) (reqs : List Request) (resps : List Response) (hr : s.resets) :
      StepOutcome s { s.doReset with
        rst := level, requests := reqs, responses := resps, schedule := s.schedule.tail }
  | idle (d : Nat) (hr : s.rst = false) : StepOutcome s { s with schedule := s.schedule.tail, delay := d }
  | completed (i : Instr) (hr : s.rst = false) (hp : s.pending = some i) :
      StepOutcome s (effectOf i { s with schedule := s.schedule.tail, turn := .engine }).complete
  | served {t : State} (r : Request) (rest : List Request) (d : Nat) (hr : s.rst = false)
      (hq : s.requests = r :: rest)
      (h : ServeOutcome { s with schedule := s.schedule.tail, requests := rest, delay := d } r t) : StepOutcome s t

/-- While rst is asserted every step takes the reset state (`70_reset_and_hazards.md` R210). -/
theorem step_while_rst {s t : State} (hr : s.rst = true) (h : step s = .next t) :
    ∃ level reqs resps, t = { s.doReset with
      rst := level, requests := reqs, responses := resps, schedule := s.schedule.tail } := by
  rcases front_cases s with ⟨level, -, hf⟩ | ⟨d, hf⟩ | hf
  · rw [step_of_front_none hf, Host.Outcome.next.injEq, State.driveRst, if_pos (by simp [hr])] at h
    exact ⟨level, _, _, h.symm⟩
  · obtain ⟨-, reqs, resps, hh⟩ | ⟨hr', -⟩ | ⟨-, -, hr', -⟩ :=
      hostStep_cases { s with schedule := s.schedule.tail, delay := d }
    · rw [step_of_front_none (hf.trans hh), Host.Outcome.next.injEq] at h
      exact ⟨s.rst, reqs, resps, h.symm⟩
    · simp [hr] at hr'
    · simp [hr] at hr'
  · rw [State.engineStep, if_pos hr] at hf
    rw [step_of_front_none hf, Host.Outcome.next.injEq] at h
    exact ⟨s.rst, _, _, h.symm⟩

theorem step_outcome {s t : State} (h : step s = .next t) : StepOutcome s t := by
  cases hr : s.rst with
  | true =>
    obtain ⟨level, reqs, resps, rfl⟩ := step_while_rst hr h
    exact .reset level reqs resps (.inl hr)
  | false =>
    rcases step_cases h with ⟨hres, level, reqs, resps, rfl, -⟩ | ⟨d, rfl⟩ | ⟨i, -, hp, rfl⟩ |
      ⟨r, rest, d, v, -, hq, hs⟩
    · exact .reset level reqs resps hres
    · exact .idle d hr
    · exact .completed i hr hp
    · exact .served r rest d hr hq (serve_outcome hs)

/-- No transaction writes the parameters, SIZE or the level of rst. -/
theorem ServeOutcome.frame {u t : State} {r : Request} (h : ServeOutcome u r t) :
    t.cfg = u.cfg ∧ t.size = u.size ∧ t.rst = u.rst := by
  cases h <;> exact ⟨rfl, rfl, rfl⟩

/-! ## The parameters, SIZE and the flags -/

/-- Settles O54: each outcome of a step has the parameters it began with. -/
theorem romAndIdNeverChange : Obligations.RomAndIdNeverChange := by
  intro s t h
  cases step_outcome h with
  | reset => rfl
  | idle => rfl
  | completed i =>
    obtain ⟨hcfg, -⟩ := effectOf_frame i { s with schedule := s.schedule.tail, turn := .engine }
    exact hcfg
  | served r rest d hr hq hs =>
    obtain ⟨hcfg, -⟩ := hs.frame
    exact hcfg

/-- Settles O55: of the outcomes of a step only the reset state and the completion of CONFIG and ANALYZE have another
SIZE. -/
theorem onlyConfigAndAnalyzeWriteSize : Obligations.OnlyConfigAndAnalyzeWriteSize := by
  intro s t h hne
  cases step_outcome h with
  | reset level reqs resps hr => exact .inr ⟨hr, rfl⟩
  | idle => exact absurd rfl hne
  | completed i hr hp =>
    left
    rw [State.complete_size, effectOf_size] at hne ⊢
    cases i with
    | config n => exact ⟨n, .inl hp, ⟨rfl, rfl, rfl⟩, rfl⟩
    | analyze n => exact ⟨n, .inr hp, ⟨rfl, rfl, rfl⟩, rfl⟩
    | nop | bitrev | bfly | fft | mag => exact absurd rfl hne
  | served r rest d hr hq hs =>
    obtain ⟨-, hsize, -⟩ := hs.frame
    exact absurd hsize hne

/-- A served transaction clears ERR only as a STATUS write with bit 2 set. -/
theorem ServeOutcome.err_cleared {u t : State} {r : Request} (h : ServeOutcome u r t) (hset : u.status.err = true)
    (hclear : t.status.err = false) : ∃ v : Word, r = .write 0x08#23 8 v ∧ v.getLsbD 2 = true := by
  cases h with
  | statusWritten v hr =>
    refine ⟨v, hr, ?_⟩
    simpa [Status.clearedBy, hset] using hclear
  | rejected => cases hclear
  | answered | ctrlWritten | stored | accepted => exact Bool.noConfusion (hset.symm.trans hclear)

/-- A served transaction clears DONE only as a STATUS write with bit 1 set or as a command that is accepted. -/
theorem ServeOutcome.done_cleared {u t : State} {r : Request} (h : ServeOutcome u r t) (hset : u.status.done = true)
    (hclear : t.status.done = false) :
    (∃ v : Word, r = .write 0x08#23 8 v ∧ v.getLsbD 1 = true) ∨
      (u.status.busy = false ∧ t.status.busy = true ∧ t.pending ≠ none) := by
  cases h with
  | statusWritten v hr =>
    refine .inl ⟨v, hr, ?_⟩
    simpa [Status.clearedBy, hset] using hclear
  | accepted w i hr hidle hchecked => exact .inr ⟨hidle, rfl, Option.some_ne_none i⟩
  | answered | ctrlWritten | stored | rejected => exact Bool.noConfusion (hset.symm.trans hclear)

/-- Settles O58: a completion clears neither flag, a transaction only as the two lemmas above say. -/
theorem flagsAreClearedOnlyAsStated : Obligations.FlagsAreClearedOnlyAsStated := by
  intro s t h
  cases step_outcome h with
  | reset level reqs resps hr => exact ⟨fun _ _ => .inl hr, fun _ _ => .inl hr⟩
  | idle d hr =>
    exact ⟨fun hset hclear => Bool.noConfusion (hset.symm.trans hclear),
      fun hset hclear => Bool.noConfusion (hset.symm.trans hclear)⟩
  | completed i hr hp =>
    obtain ⟨-, hstatus, -⟩ := effectOf_frame i { s with schedule := s.schedule.tail, turn := .engine }
    refine ⟨fun hset hclear => ?_, fun _ hclear => by cases hclear⟩
    rw [State.complete_status, hstatus] at hclear
    exact Bool.noConfusion (hset.symm.trans hclear)
  | served r rest d hr hq hs =>
    simp only [hq, List.head?_cons, Option.some.injEq]
    exact ⟨fun hset hclear => .inr (hs.err_cleared hset hclear), fun hset hclear => .inr (hs.done_cleared hset hclear)⟩

end Sys2Proof.Machine
end

section
/-! PROOF. The machine invariant (`10_state.md` R25 to R35, `40_control.md` R110, `70_reset_and_hazards.md` R210): the
memory part is kept by every write of whole elements inside the buffers, the rest by the outcomes of a step. -/

namespace Sys2Proof.Machine

/-! ## The buffer memory -/

/-- The memory clauses of `State.Inv`, of the memory alone. -/
structure BufferMemory (c : Config) (m : Memory) : Prop where
  sorted : Memory.wf m
  inBuffers : ∀ x ∈ m, target c (x.1 / 8 * 8) = .buffer
  whole : ∀ a, (Memory.readByte m a).isSome = (Memory.readByte m (a / 8 * 8)).isSome

theorem State.Inv.bufferMemory {s : State} (h : s.Inv) : BufferMemory s.cfg s.mem :=
  ⟨h.memSorted, h.memInBuffers, h.memWhole⟩

theorem bufferMemory_nil (c : Config) : BufferMemory c [] := ⟨List.Pairwise.nil, nofun, fun _ => rfl⟩

/-- Every byte of the n elements from an offset is a byte of a buffer. -/
def InBuffers (c : Config) (off n : Nat) : Prop := ∀ a, inWindow off n a → target c (a / 8 * 8) = .buffer

/-- A byte and the first byte of its element are both inside a span of whole elements, in the same one, or both
outside. -/
theorem isSome_readByte_writeWords_eq {m : Memory} {off : Nat} (ws : List (Option Word)) (hoff : off % 8 = 0)
    (hm : ∀ a, (Memory.readByte m a).isSome = (Memory.readByte m (a / 8 * 8)).isSome) (a : Nat) :
    (Memory.readByte (Memory.writeWords m off ws) a).isSome =
      (Memory.readByte (Memory.writeWords m off ws) (a / 8 * 8)).isSome := by
  rw [Memory.readByte_writeWords, Memory.readByte_writeWords]
  by_cases h : off ≤ a ∧ a < off + 8 * ws.length
  · have hindex : (a / 8 * 8 - off) / 8 = (a - off) / 8 := by omega
    rw [if_pos h, if_pos (by omega), hindex, Option.isSome_map, Option.isSome_map]
  · rw [if_neg h, if_neg (by omega)]
    exact hm a

/-- Writing whole elements inside the buffers keeps the memory clauses. -/
theorem BufferMemory.writeWords {c : Config} {m : Memory} (h : BufferMemory c m) {off : Nat} {ws : List (Option Word)}
    (hoff : off % 8 = 0) (hin : InBuffers c off ws.length) : BufferMemory c (Memory.writeWords m off ws) where
  sorted := Memory.wf_writeWords h.sorted off ws
  inBuffers x hx := (Memory.mem_writeWords hx).elim (h.inBuffers x) (hin x.1)
  whole := isSome_readByte_writeWords_eq ws hoff h.whole

/-! ## The windows -/

section
variable {c : Config} {n : Nat}

theorem inBuffers_real (hn : n ≤ c.nMax) (hmax : n ≤ 131072) : InBuffers c realBase n := by
  intro a ha
  simp only [inWindow, realBase] at ha
  have hwindow : a / 8 * 8 / windowSpan = 1 := by unfold windowSpan; omega
  have hindex : a / 8 * 8 % windowSpan / 8 < c.nMax := by unfold windowSpan; omega
  simp only [target, hwindow, if_pos hindex]

theorem inBuffers_imag (hn : n ≤ c.nMax) (hmax : n ≤ 131072) : InBuffers c imagBase n := by
  intro a ha
  simp only [inWindow, imagBase] at ha
  have hwindow : a / 8 * 8 / windowSpan = 2 := by unfold windowSpan; omega
  have hindex : a / 8 * 8 % windowSpan / 8 < c.nMax := by unfold windowSpan; omega
  simp only [target, hwindow, if_pos hindex]

theorem inBuffers_mag (hn : n ≤ c.nMax / 2) (hmax : n ≤ 131072) : InBuffers c magBase n := by
  intro a ha
  simp only [inWindow, magBase] at ha
  have hwindow : a / 8 * 8 / windowSpan = 3 := by unfold windowSpan; omega
  have hindex : a / 8 * 8 % windowSpan / 8 < c.nMax / 2 := by unfold windowSpan; omega
  simp only [target, hwindow, if_pos hindex]

end

/-- An aligned offset that names a buffer element. -/
theorem inBuffers_one {c : Config} {off : Nat} (hoff : off % 8 = 0) (ht : target c off = .buffer) :
    InBuffers c off 1 := by
  intro a ha
  simp only [inWindow] at ha
  have haligned : a / 8 * 8 = off := by omega
  rwa [haligned]

/-! ## What the commands leave in memory -/

section
variable {s : State} {n : Nat} (hmem : BufferMemory s.cfg s.mem) (hn : n ≤ s.cfg.nMax) (hmax : n ≤ 131072)
include hmem hn hmax

theorem bufferMemory_storeComplex {re im : List (Option Word)} (hre : re.length = n) (him : im.length = n) :
    BufferMemory s.cfg (s.storeComplex re im).mem := by
  subst hre
  refine (hmem.writeWords rfl (inBuffers_real hn hmax)).writeWords rfl ?_
  rw [him]
  exact inBuffers_imag hn hmax

theorem bufferMemory_bitrevEffect : BufferMemory s.cfg (bitrevEffect n s).mem :=
  bufferMemory_storeComplex hmem hn hmax (by simp) (by simp)

theorem bufferMemory_bflyEffect : BufferMemory s.cfg (bflyEffect n s).mem :=
  bufferMemory_storeComplex hmem hn hmax (by simp) (by simp)

theorem bufferMemory_zeroImag : BufferMemory s.cfg (zeroImag n s).mem :=
  hmem.writeWords rfl (by rw [List.length_replicate]; exact inBuffers_imag hn hmax)

theorem bufferMemory_magEffect : BufferMemory s.cfg (magEffect n s).mem := by
  refine hmem.writeWords rfl ?_
  rw [length_patterns, length_magnitudes, length_samples]
  exact inBuffers_mag (Nat.div_le_div_right hn) (by omega)

theorem bufferMemory_fftEffect : BufferMemory s.cfg (fftEffect n s).mem :=
  bufferMemory_bflyEffect (s := bitrevEffect n s) (bufferMemory_bitrevEffect hmem hn hmax) hn hmax

theorem bufferMemory_analyzeEffect : BufferMemory s.cfg (analyzeEffect n s).mem :=
  bufferMemory_magEffect (s := fftEffect n (zeroImag n (configEffect n s)))
    (bufferMemory_fftEffect (s := zeroImag n (configEffect n s))
      (bufferMemory_zeroImag (s := configEffect n s) hmem hn hmax) hn hmax) hn hmax

end

/-! ## The checks of a command -/

theorem sizeError_eq_none {s : State} {n : Nat} : s.sizeError n = none ↔ validSize s.cfg n = true := by
  unfold State.sizeError
  split <;> simp_all

theorem lengthError_eq_none {s : State} {n : Nat} :
    s.lengthError n = none ↔ validSize s.cfg n = true ∧ s.size.n ≠ 0 ∧ n = s.size.n := by
  unfold State.lengthError
  split_ifs <;> simp_all

/-- The checks of R110: a valid size, and for the commands of R110's second list the configured one. -/
theorem operandError_eq_none {s : State} {i : Instr} :
    s.operandError i = none ↔ i = .nop ∨
      (validSize s.cfg i.len = true ∧ (checksLength i = true → s.size.n ≠ 0 ∧ i.len = s.size.n)) := by
  cases i with
  | nop => simp [State.operandError]
  | config n | analyze n => simp [State.operandError, sizeError_eq_none, checksLength, Instr.len]
  | bitrev n | bfly n | fft n | mag n => simp [State.operandError, lengthError_eq_none, checksLength, Instr.len]

theorem validSize_of_checked {s : State} {i : Instr} (h : s.operandError i = none) (hi : i ≠ .nop) :
    validSize s.cfg i.len = true :=
  ((operandError_eq_none.1 h).resolve_left hi).1

theorem log2nMax_le_of_wf {c : Config} (h : c.wf = true) : c.log2nMax ≤ 17 := by
  simp only [Config.wf, Bool.and_eq_true, decide_eq_true_eq] at h
  omega

/-- The completion of a checked command keeps the memory clauses. -/
theorem bufferMemory_effectOf {s : State} {i : Instr} (hcfg : s.cfg.wf = true) (hmem : BufferMemory s.cfg s.mem)
    (hi : s.operandError i = none) : BufferMemory s.cfg (effectOf i s).mem := by
  rcases eq_or_ne i .nop with rfl | hnop
  · exact hmem
  have hn : i.len ≤ s.cfg.nMax := validSize_le (validSize_of_checked hi hnop)
  have hmax : i.len ≤ 131072 := hn.trans (nMax_le (log2nMax_le_of_wf hcfg))
  cases i with
  | nop | config => exact hmem
  | bitrev n => exact bufferMemory_bitrevEffect hmem hn hmax
  | bfly n => exact bufferMemory_bflyEffect hmem hn hmax
  | fft n => exact bufferMemory_fftEffect hmem hn hmax
  | mag n => exact bufferMemory_magEffect hmem hn hmax
  | analyze n => exact bufferMemory_analyzeEffect hmem hn hmax

/-! ## The invariant -/

/-- SIZE is 0, or a valid size and its logarithm (`10_state.md` R27). -/
def SizeValid (c : Config) (z : Size) : Prop :=
  (z.n = 0 ∧ z.log2n = 0) ∨ (validSize c z.n = true ∧ z.log2n = Nat.log2 z.n)

theorem sizeValid_effectOf {s : State} {i : Instr} (h : SizeValid s.cfg s.size) (hi : s.operandError i = none) :
    SizeValid s.cfg (effectOf i s).size := by
  rw [effectOf_size]
  cases i with
  | config | analyze => exact .inr ⟨sizeError_eq_none.1 hi, rfl⟩
  | nop | bitrev | bfly | fft | mag => exact h

/-- The reset state of a legal configuration, whatever waits outside the block. -/
theorem inv_doReset {s : State} (hcfg : s.cfg.wf = true) (level : Bool) (reqs : List Request) (resps : List Response)
    (sched : List Tick) :
    State.Inv { s.doReset with rst := level, requests := reqs, responses := resps, schedule := sched } where
  cfg := hcfg
  memSorted := List.Pairwise.nil
  memInBuffers := nofun
  memWhole _ := rfl
  busyIffPending := rfl
  doneWhenIdle := nofun
  errcodeIffErr := by simp [State.doReset, State.resetOf]
  sizeValid := .inl ⟨rfl, rfl⟩
  pendingOp := nofun
  pendingChecked := nofun
  resetHeld _ := rfl

theorem inv_resetOf {c : Config} (h : c.wf = true) : (State.resetOf c).Inv :=
  inv_doReset (s := State.resetOf c) h false [] [] []

/-- The completion of the pending command keeps the invariant. -/
theorem State.Inv.complete {u : State} {i : Instr} (h : u.Inv) (hp : u.pending = some i) (hr : u.rst = false) :
    (effectOf i u).complete.Inv := by
  have hchecked := h.pendingChecked i hp
  obtain ⟨hcfg, hstatus, -, -, hrst, -⟩ := effectOf_frame i u
  have hmem := bufferMemory_effectOf h.cfg h.bufferMemory hchecked
  have hsize := sizeValid_effectOf h.sizeValid hchecked
  rw [← hcfg] at hmem hsize
  exact {
    cfg := (congrArg Config.wf hcfg).trans h.cfg
    memSorted := hmem.sorted
    memInBuffers := hmem.inBuffers
    memWhole := hmem.whole
    busyIffPending := rfl
    doneWhenIdle := nofun
    errcodeIffErr := by
      rw [State.complete_status, hstatus]
      exact h.errcodeIffErr
    sizeValid := hsize
    pendingOp := nofun
    pendingChecked := nofun
    resetHeld := fun hr' => Bool.noConfusion (hr.symm.trans (hrst.symm.trans hr')) }

theorem errcodeIffErr_clearedBy {t : Status} (h : t.err = true ↔ t.errcode ≠ .none) (v : Word) :
    (t.clearedBy v).err = true ↔ (t.clearedBy v).errcode ≠ .none := by
  simp only [Status.clearedBy]
  cases v.getLsbD 2 with
  | false => simpa using h
  | true => simp

/-- A transaction that is served keeps the invariant. -/
theorem ServeOutcome.inv {u t : State} {r : Request} (h : ServeOutcome u r t) (hu : u.Inv) (hr : u.rst = false) :
    t.Inv := by
  have held {p : Prop} (h1 : u.rst = true) : p := Bool.noConfusion (hr.symm.trans h1)
  cases h with
  | answered a d => exact { hu with resetHeld := held }
  | ctrlWritten v => exact { hu with resetHeld := held }
  | statusWritten v =>
    exact { hu with
      doneWhenIdle := fun hb => by
        rw [Status.clearedBy, hu.doneWhenIdle hb]
        rfl
      errcodeIffErr := errcodeIffErr_clearedBy hu.errcodeIffErr v
      resetHeld := held }
  | stored off v _ hidle haligned hbuffer =>
    have hmem := hu.bufferMemory.writeWords (ws := [some v]) haligned (inBuffers_one haligned hbuffer)
    exact { hu with
      memSorted := hmem.sorted
      memInBuffers := hmem.inBuffers
      memWhole := hmem.whole
      resetHeld := held }
  | rejected w e _ he => exact { hu with errcodeIffErr := ⟨fun _ => he, fun _ => rfl⟩, resetHeld := held }
  | accepted w i _ hidle hchecked =>
    exact { hu with
      busyIffPending := rfl
      doneWhenIdle := fun _ => rfl
      pendingOp := fun j hj => by
        cases hj
        rfl
      pendingChecked := fun j hj => by
        cases hj
        exact hchecked
      resetHeld := held }

/-- Settles O52: each outcome of a step keeps the invariant. -/
theorem stepKeepsTheInvariant : Obligations.StepKeepsTheInvariant := by
  intro s t hs h
  have held (hr : s.rst = false) {p : Prop} (h1 : s.rst = true) : p := Bool.noConfusion (hr.symm.trans h1)
  cases step_outcome h with
  | reset level reqs resps => exact inv_doReset hs.cfg level reqs resps _
  | idle d hr => exact { hs with resetHeld := held hr }
  | completed i hr hp => exact State.Inv.complete { hs with resetHeld := held hr } hp hr
  | served r rest d hr hq hserved => exact hserved.inv { hs with resetHeld := held hr } hr

/-! ## After reset -/

theorem referenceConfig_wf : referenceConfig.wf = true := by decide +kernel

/-- Settles O51: the reset state meets every clause, and the reference configuration is legal. -/
theorem resetMeetsTheInvariant : Obligations.ResetMeetsTheInvariant :=
  ⟨inv_resetOf referenceConfig_wf, fun _ => inv_resetOf⟩

/-- Settles O48: SIZE, STATUS and CTRL read 0 by their fields, and an empty memory holds no element. -/
theorem resetValues : Obligations.ResetValues := by
  intro c
  have hstatus : Status.word { busy := false, done := false, err := false, errcode := .none, curOp := 0x00#8 } = 0#64 :=
    by decide
  have hctrl : Ctrl.word { ieDone := false, ieErr := false } = 0#64 := by decide
  have hsize : Size.word { n := 0, log2n := 0 } = 0#64 := by decide
  exact ⟨rfl, hstatus, hctrl, hsize, rfl, rfl, rfl, rfl, fun i => ⟨rfl, rfl, rfl⟩⟩

end Sys2Proof.Machine
end

section
/-! PROOF. Host accesses to the control registers (`10_state.md` R24 to R28) and the interrupt line (R42). -/

namespace Sys2Proof.Machine

/-! ## Served transactions -/

theorem target_eq_registerAt (c : Config) {off : Nat} (h : off < windowSpan) : target c off = registerAt off := by
  simp only [target, Nat.div_eq_of_lt h]

/-- A step that serves a transaction which presents no command. -/
theorem step_of_serves {s t : State} {r : Request} (h : s.serves r)
    (hs : ({ s with schedule := s.schedule.tail, requests := s.requests.tail } : State).serve r = (t, none)) :
    step s = .next t :=
  step_of_front_none ((front_of_serves h).trans hs)

/-- A read of anything but a buffer answers what stands there, busy or not (`20_memory.md` R67). -/
theorem hostRead_eq_readElement {u : State} {off : Nat} {r : Target} (haligned : off % 8 = 0)
    (htarget : target u.cfg off = r) (hbuffer : r ≠ .buffer) (hmapped : r ≠ .unmapped) :
    u.hostRead off 8 = u.readElement (u.contents off r) := by
  have hlegal : legalAccess off 8 = true := by simp [legalAccess, haligned]
  rw [State.hostRead, if_pos hlegal, htarget]
  cases r with
  | buffer => exact absurd rfl hbuffer
  | unmapped => exact absurd rfl hmapped
  | id | status | ctrl | size | cmd | romc | roms => rfl

/-- A read of a register or a ROM entry answers OKAY with the word it holds, and the word's bytes are at its host
addresses (`20_memory.md` R66, R67). -/
theorem step_of_read_contents {s : State} {off : BitVec 23} {r : Target} {w : Word} (h : s.serves (.read off 8))
    (haligned : off.toNat % 8 = 0) (htarget : target s.cfg off.toNat = r) (hbuffer : r ≠ .buffer)
    (hw : s.contents off.toNat r = some w) :
    step s = .next (s.answered (readOkay w)) ∧ s.shows off.toNat w := by
  constructor
  · have hmapped : r ≠ .unmapped := by
      rintro rfl
      cases hw
    have hcontents : State.contents { s with schedule := s.schedule.tail, requests := s.requests.tail } off.toNat r =
        some w := by rw [← hw]; cases r <;> rfl
    have hread := hostRead_eq_readElement (u := { s with schedule := s.schedule.tail, requests := s.requests.tail })
      haligned htarget hbuffer hmapped
    refine step_of_serves h ?_
    rw [State.serve, hread, hcontents]
    rfl
  · intro b hb
    rw [hostByte_busAddress haligned off.isLt hb, htarget, hw]
    rfl

/-- A read of the register at an offset. -/
theorem step_of_read_register {s : State} {off : BitVec 23} {r : Target} {w : Word} (h : s.serves (.read off 8))
    (haligned : off.toNat % 8 = 0) (hlow : off.toNat < windowSpan) (hreg : registerAt off.toNat = r) (hr : r ≠ .buffer)
    (hw : s.contents off.toNat r = some w) :
    step s = .next (s.answered (readOkay w)) ∧ s.shows off.toNat w :=
  step_of_read_contents h haligned ((target_eq_registerAt s.cfg hlow).trans hreg) hr hw

theorem serve_cmd_write (u : State) (w : Word) : u.serve (.write 0x20#23 8 w) = u.present w := by
  have ht : target u.cfg (0x20#23).toNat = .cmd := target_eq_registerAt _ (by decide)
  simp only [State.serve, State.hostWrite, ht]
  rfl

/-- A step that serves a CMD write of a legal word issues the command (`40_control.md` R110). -/
theorem step_of_presents_legal {s : State} {w : Word} {i : Instr} (h : s.presents w) (hd : decode w = .ok i) :
    step s = .next ({ s.answered writeOkay with turn := .host }.issue i) := by
  have hfront : s.front = ({ s.answered writeOkay with turn := .host }, some i) := by
    simp only [front_of_serves h, serve_cmd_write, State.present, hd]
    rfl
  rw [step_of_front_some hfront]
  exact exec_host i rfl

/-- A step that serves a CMD write of an illegal word rejects it (`30_encoding.md` R93). -/
theorem step_of_presents_illegal {s : State} {w : Word} {e : Illegal} (h : s.presents w) (hd : decode w = .error e) :
    step s = .next { s.answered writeOkay with turn := .host }.issueIllegal := by
  refine step_of_serves h ?_
  simp only [serve_cmd_write, State.present, hd]
  rfl

/-- A write to ID or SIZE is a bus error (`60_exceptions.md` R184). -/
theorem step_of_refused_write {s : State} {off : BitVec 23} {v : Word} (h : s.serves (.write off 8 v))
    (haligned : off.toNat % 8 = 0) (htarget : target s.cfg off.toNat = .id ∨ target s.cfg off.toNat = .size) :
    step s = .next (s.answered writeError) := by
  refine step_of_serves h ?_
  have hlegal : legalAccess off.toNat 8 = true := by simp [legalAccess, haligned]
  rcases htarget with ht | ht <;> simp only [State.serve, State.hostWrite, if_pos hlegal, ht] <;> rfl

theorem step_of_status_write {s : State} {v : Word} (h : s.serves (.write 0x08#23 8 v)) :
    step s = .next { s.answered writeOkay with status := s.status.clearedBy v } := by
  refine step_of_serves h ?_
  have ht : target s.cfg (0x08#23).toNat = .status := target_eq_registerAt _ (by decide)
  simp only [State.serve, State.hostWrite, ht]
  rfl

theorem step_of_ctrl_write {s : State} {v : Word} (h : s.serves (.write 0x10#23 8 v)) :
    step s = .next { s.answered writeOkay with ctrl := ctrlOf v } := by
  refine step_of_serves h ?_
  have ht : target s.cfg (0x10#23).toNat = .ctrl := target_eq_registerAt _ (by decide)
  simp only [State.serve, State.hostWrite, ht]
  rfl

/-! ## The fields of the registers' words

Every field of a concatenation is reached by dropping the fields below it. -/

theorem idWord_fields (c : Config) :
    (idWord c).extractLsb' 0 32 = 0x46465432#32 ∧ (idWord c).extractLsb' 32 8 = 0x01#8 ∧
      (idWord c).extractLsb' 40 8 = BitVec.ofNat 8 c.log2nMax ∧ (idWord c).extractLsb' 48 16 = 0#16 := by
  unfold idWord
  refine ⟨?_, ?_, ?_, ?_⟩ <;> repeat rw [BitVec.extractLsb'_append_eq_of_le (by decide)]
  · exact BitVec.extractLsb'_append_eq_right
  · exact BitVec.extractLsb'_append_eq_right
  · exact BitVec.extractLsb'_append_eq_right
  · exact BitVec.extractLsb'_eq_self

theorem Status.word_flags (t : Status) :
    t.word.getLsbD 0 = t.busy ∧ t.word.getLsbD 1 = t.done ∧ t.word.getLsbD 2 = t.err := by
  simp only [Status.word, BitVec.getLsbD_append]
  simp

theorem Status.word_fields (t : Status) :
    t.word.extractLsb' 3 5 = 0#5 ∧ t.word.extractLsb' 8 4 = t.errcode.code ∧ t.word.extractLsb' 12 4 = 0#4 ∧
      t.word.extractLsb' 16 8 = t.curOp ∧ t.word.extractLsb' 24 40 = 0#40 := by
  unfold Status.word
  refine ⟨?_, ?_, ?_, ?_, ?_⟩ <;> repeat rw [BitVec.extractLsb'_append_eq_of_le (by decide)]
  · exact BitVec.extractLsb'_append_eq_right
  · exact BitVec.extractLsb'_append_eq_right
  · exact BitVec.extractLsb'_append_eq_right
  · exact BitVec.extractLsb'_append_eq_right
  · exact BitVec.extractLsb'_eq_self

theorem Ctrl.word_flags (t : Ctrl) : t.word.getLsbD 0 = t.ieDone ∧ t.word.getLsbD 1 = t.ieErr := by
  simp only [Ctrl.word, BitVec.getLsbD_append]
  simp

theorem Ctrl.word_reserved (t : Ctrl) : t.word.extractLsb' 2 62 = 0#62 := by
  unfold Ctrl.word
  repeat rw [BitVec.extractLsb'_append_eq_of_le (by decide)]
  exact BitVec.extractLsb'_eq_self

theorem Size.word_fields (z : Size) :
    z.word.extractLsb' 0 32 = BitVec.ofNat 32 z.n ∧ z.word.extractLsb' 32 8 = BitVec.ofNat 8 z.log2n ∧
      z.word.extractLsb' 40 24 = 0#24 := by
  unfold Size.word
  refine ⟨?_, ?_, ?_⟩ <;> repeat rw [BitVec.extractLsb'_append_eq_of_le (by decide)]
  · exact BitVec.extractLsb'_append_eq_right
  · exact BitVec.extractLsb'_append_eq_right
  · exact BitVec.extractLsb'_eq_self

/-! ## The registers -/

/-- Settles O37: the read answers `idWord`, whatever the state. -/
theorem idReadsItsFieldsAndRefusesWrites : Obligations.IdReadsItsFieldsAndRefusesWrites := by
  refine ⟨fun s h => ?_, fun s v h => step_of_refused_write h rfl (.inl (target_eq_registerAt _ (by decide)))⟩
  obtain ⟨hstep, hshows⟩ := step_of_read_register h rfl (by decide) rfl (by decide) rfl
  obtain ⟨hmagic, hifver, hlog, hreserved⟩ := idWord_fields s.cfg
  refine ⟨idWord s.cfg, hstep, hmagic, hifver, hlog, hreserved, fun h12 => ?_, hshows⟩
  rw [idWord, h12]
  rfl

/-- Settles O38: the read answers `Status.word`, the write leaves `Status.clearedBy`. -/
theorem statusReadsItsFieldsAndClearsOnOnes : Obligations.StatusReadsItsFieldsAndClearsOnOnes := by
  constructor
  · intro s h
    obtain ⟨hstep, hshows⟩ := step_of_read_register h rfl (by decide) rfl (by decide) rfl
    obtain ⟨hbusy, hdone, herr⟩ := s.status.word_flags
    obtain ⟨hlow, hcode, hmid, hop, htop⟩ := s.status.word_fields
    exact ⟨s.status.word, hstep, hbusy, hdone, herr, hlow, hcode, hmid, hop, htop, hshows⟩
  · intro s v h
    have hclear (b bit : Bool) : (b && !bit) = if bit then false else b := by cases bit <;> simp
    rw [step_of_status_write h, Status.clearedBy, hclear, hclear]

/-- Settles O39: the write leaves `ctrlOf`, the read answers `Ctrl.word`. -/
theorem ctrlHoldsItsTwoEnables : Obligations.CtrlHoldsItsTwoEnables := by
  refine ⟨fun s v h => step_of_ctrl_write h, fun s h => ?_, fun c => rfl⟩
  obtain ⟨hstep, hshows⟩ := step_of_read_register h rfl (by decide) rfl (by decide) rfl
  obtain ⟨hdone, herr⟩ := s.ctrl.word_flags
  exact ⟨s.ctrl.word, hstep, hdone, herr, s.ctrl.word_reserved, hshows⟩

/-- Settles O40: the reads answer `Size.word` and 0; a CMD write is answered before its word is looked at. -/
theorem sizeAndCmdAccesses : Obligations.SizeAndCmdAccesses := by
  refine ⟨fun s h => ?_, fun s v h => step_of_refused_write h rfl (.inr (target_eq_registerAt _ (by decide))),
    fun s h => step_of_read_register h rfl (by decide) rfl (by decide) rfl, fun s w h => ?_⟩
  · obtain ⟨hstep, hshows⟩ := step_of_read_register h rfl (by decide) rfl (by decide) rfl
    obtain ⟨hn, hlog, hreserved⟩ := s.size.word_fields
    exact ⟨s.size.word, hstep, hn, hlog, hreserved, hshows⟩
  · cases hd : decode w with
    | ok i =>
      obtain ⟨-, -, -, -, -, hreqs, hresps, -⟩ := issue_frame { s.answered writeOkay with turn := .host } i
      exact ⟨_, step_of_presents_legal h hd, hresps, hreqs⟩
    | error e =>
      obtain ⟨code, -, hrej⟩ := issueIllegal_eq_reject { s.answered writeOkay with turn := .host }
      exact ⟨_, step_of_presents_illegal h hd, by rw [hrej]; rfl, by rw [hrej]; rfl⟩

/-! ## The interrupt line -/

/-- irq is 1 once a command has been rejected with IE_ERR = 1. -/
theorem irq_reject {s : State} (h : s.ctrl.ieErr = true) (e : ErrCode) : (s.reject e).irq = true := by
  simp [State.irq, h]

/-- A command whose operand fails a check of R110 is rejected. -/
theorem operandError_ne_none {s : State} {i : Instr} (hnop : i ≠ .nop)
    (h : validSize s.cfg i.len = false ∨ (checksLength i = true ∧ (s.size.n = 0 ∨ i.len ≠ s.size.n))) :
    s.operandError i ≠ none := by
  intro hnone
  obtain ⟨hvalid, hlen⟩ := (operandError_eq_none.1 hnone).resolve_left hnop
  rcases h with h | ⟨hchecks, h | h⟩
  · exact Bool.noConfusion (h.symm.trans hvalid)
  · exact (hlen hchecks).1 h
  · exact h (hlen hchecks).2

/-- Settles O47: irq is its formula; completion sets DONE, and each of the five conditions makes the issue a rejection,
which sets ERR. -/
theorem irqFollowsStatusAndCtrl : Obligations.IrqFollowsStatusAndCtrl := by
  refine ⟨fun s => by simp [State.irq], fun i s t hturn hie h => ?_, fun s t w hw hie h hcause => ?_⟩
  · obtain ⟨-, -, hctrl, -⟩ := effectOf_frame i s
    rw [exec_engine i hturn, Host.Outcome.next.injEq] at h
    subst h
    simp [State.irq, hctrl, hie]
  cases hd : decode w with
  | error e =>
    obtain ⟨code, -, hrej⟩ := issueIllegal_eq_reject { s.answered writeOkay with turn := .host }
    rw [step_of_presents_illegal hw hd, Host.Outcome.next.injEq, hrej] at h
    exact h ▸ irq_reject hie code
  | ok i =>
    rw [step_of_presents_legal hw hd, Host.Outcome.next.injEq] at h
    rcases issue_outcome { s.answered writeOkay with turn := .host } i with ⟨code, -, hrej⟩ | ⟨hidle, hchecked, -⟩
    · rw [hrej] at h
      exact h ▸ irq_reject hie code
    · rcases hcause with hbusy | ⟨e, he⟩ | ⟨j, hj, hnop, hbad⟩
      · exact Bool.noConfusion (hbusy.symm.trans hidle)
      · cases hd.symm.trans he
      · cases hd.symm.trans hj
        exact absurd hchecked (operandError_ne_none hnop hbad)

end Sys2Proof.Machine
end

section
/-! PROOF. The reference ROM (`10_state.md` R36, R37): the angle 2π/4096 is stepped through the quarter wave in 96-bit
fixed point, whose error a complex rotation bounds; every entry of the table lies near the stepped cosine. -/

namespace Sys2Proof.Machine

/-! ## The fixed-point run -/

/-- Gives a number to a function once it has been evaluated, so that a run in the kernel hands on numerals. -/
def forceNat {α : Type} (n : Nat) (f : Nat → α) : α :=
  match n with
  | 0 => f 0
  | n + 1 => f (n + 1)

@[simp] theorem forceNat_eq {α : Type} (n : Nat) (f : Nat → α) : forceNat n f = f n := by
  cases n <;> rfl

/-- cos(2p/4096) · 2^96 rounded down, p being π to 20 decimals. -/
def stepCos : Nat := 79228069298504570632279043858

/-- sin(2p/4096) · 2^96 rounded down. As p is below π, the run stays in the first quadrant up to its end. -/
def stepSin : Nat := 121534431492630892444880390

/-- The pattern v is a number with a clear sign within 2^-51 of x · 2^-96. -/
def nearPattern (v x : Nat) : Bool :=
  match f64 (BitVec.ofNat 64 v) with
  | .fin false u =>
    decide (u * 2 ^ 96 ≤ x * 2 ^ 1074 + 2 ^ 1119) && decide (x * 2 ^ 1074 ≤ u * 2 ^ 96 + 2 ^ 1119)
  | _ => false

/-- Each pattern is near the cosine of its angle, the point (x, y) being turned by one step between them. The comparison
keeps the subtraction from being cut off. -/
def cosineRun : List Nat → Nat → Nat → Bool
  | [], _, _ => true
  | v :: vs, x, y =>
    nearPattern v x && decide (y * stepSin ≤ x * stepCos) &&
      forceNat ((x * stepCos - y * stepSin) / 2 ^ 96) fun x' =>
        forceNat ((x * stepSin + y * stepCos) / 2 ^ 96) fun y' => cosineRun vs x' y'

theorem cosineRun_quarterWave : cosineRun (TwiddleTable.quarterWave.take 1024) (2 ^ 96) 0 = true := by
  decide +kernel

/-! ## The rotation -/

/-- The angle between two entries, 2π/4096. -/
noncomputable def stepAngle : ℝ := Real.pi / 2048

/-- The point that a run in fixed point stands for. -/
noncomputable def gridPoint (x y : Nat) : ℂ := ((x / 2 ^ 96 : ℝ) : ℂ) + ((y / 2 ^ 96 : ℝ) : ℂ) * Complex.I

/-- The point of the unit circle at an angle. -/
noncomputable def circlePoint (a : ℝ) : ℂ := Complex.exp (Complex.I * a)

theorem norm_circlePoint (a : ℝ) : ‖circlePoint a‖ = 1 := by
  rw [circlePoint, mul_comm]
  exact Complex.norm_exp_ofReal_mul_I a

theorem circlePoint_add (a b : ℝ) : circlePoint (a + b) = circlePoint a * circlePoint b := by
  rw [circlePoint, Complex.ofReal_add, mul_add, Complex.exp_add]
  rfl

theorem circlePoint_re (a : ℝ) : (circlePoint a).re = Real.cos a := by
  rw [circlePoint, mul_comm]
  exact Complex.exp_ofReal_mul_I_re a

theorem gridPoint_re (x y : Nat) : (gridPoint x y).re = x / 2 ^ 96 := by
  rw [gridPoint, Complex.add_re, Complex.re_ofReal_mul, Complex.I_re, mul_zero, add_zero, Complex.ofReal_re]

theorem norm_ofReal_add_mul_I_le (a b : ℝ) : ‖(a : ℂ) + b * Complex.I‖ ≤ |a| + |b| := by
  simpa using Complex.norm_le_abs_re_add_abs_im ((a : ℂ) + b * Complex.I)

/-- Close angles have close points. -/
theorem norm_circlePoint_sub_le (a b : ℝ) : ‖circlePoint a - circlePoint b‖ ≤ |a - b| := by
  have hfactor : circlePoint a - circlePoint b = circlePoint b * (circlePoint (a - b) - 1) := by
    rw [mul_sub, mul_one, ← circlePoint_add, add_sub_cancel]
  rw [hfactor, norm_mul, norm_circlePoint, one_mul]
  exact Real.norm_exp_I_mul_ofReal_sub_one_le

/-- The Taylor polynomial of degree 5 of the point at an angle. -/
noncomputable def taylorPoint (t : ℝ) : ℂ :=
  ((1 - t ^ 2 / 2 + t ^ 4 / 24 : ℝ) : ℂ) + ((t - t ^ 3 / 6 + t ^ 5 / 120 : ℝ) : ℂ) * Complex.I

theorem norm_circlePoint_sub_taylorPoint_le {t : ℝ} (ht : |t| ≤ 1) :
    ‖circlePoint t - taylorPoint t‖ ≤ |t| ^ 6 * (7 / 4320) := by
  have hnorm : ‖Complex.I * t‖ = |t| := by simp
  have hbound := Complex.exp_bound (x := Complex.I * t) (hnorm ▸ ht) (n := 6) (by decide)
  have hsum : ∑ m ∈ Finset.range 6, (Complex.I * t) ^ m / (m.factorial : ℂ) = taylorPoint t := by
    simp only [taylorPoint, Finset.sum_range_succ, Finset.sum_range_zero, Nat.factorial, mul_pow, Complex.I_sq,
      Complex.I_pow_three, Complex.I_pow_four, pow_succ Complex.I 4]
    push_cast
    ring
  rw [hnorm, hsum] at hbound
  refine hbound.trans_eq ?_
  norm_num [Nat.factorial]

/-- The angle between two entries, from 20 decimals of π. -/
noncomputable def decimalAngle : ℝ := 3.14159265358979323846 / 2048

theorem abs_decimalAngle_sub_le : |decimalAngle - stepAngle| ≤ 1 / 2 ^ 76 := by
  have hlow := Real.pi_gt_d20
  have hhigh := Real.pi_lt_d20
  rw [decimalAngle, stepAngle, abs_le]
  constructor <;> linarith

theorem norm_gridStep_sub_taylorPoint_le : ‖gridPoint stepCos stepSin - taylorPoint decimalAngle‖ ≤ 1 / 2 ^ 65 := by
  have hsplit (a b c d : ℝ) : ((a : ℂ) + b * Complex.I) - (c + d * Complex.I) =
      ((a - c : ℝ) : ℂ) + ((b - d : ℝ) : ℂ) * Complex.I := by push_cast; ring
  rw [gridPoint, taylorPoint, hsplit]
  refine (norm_ofReal_add_mul_I_le _ _).trans ?_
  norm_num [stepCos, stepSin, decimalAngle, abs_of_neg, abs_of_pos]

/-- The step of the run is near the step of the circle. -/
theorem norm_gridStep_sub_le : ‖gridPoint stepCos stepSin - circlePoint stepAngle‖ ≤ 1 / 2 ^ 64 := by
  have habs : |decimalAngle| = 3.14159265358979323846 / 2048 := abs_of_pos (by norm_num [decimalAngle])
  have htaylor := norm_circlePoint_sub_taylorPoint_le (t := decimalAngle) (by rw [habs]; norm_num)
  have hturn := (norm_circlePoint_sub_le decimalAngle stepAngle).trans abs_decimalAngle_sub_le
  rw [habs, norm_sub_rev] at htaylor
  calc ‖gridPoint stepCos stepSin - circlePoint stepAngle‖
      = ‖(gridPoint stepCos stepSin - taylorPoint decimalAngle) +
          (taylorPoint decimalAngle - circlePoint decimalAngle) +
          (circlePoint decimalAngle - circlePoint stepAngle)‖ := by congr 1; ring
    _ ≤ 1 / 2 ^ 65 + (3.14159265358979323846 / 2048) ^ 6 * (7 / 4320) + 1 / 2 ^ 76 :=
        norm_add₃_le.trans (add_le_add (add_le_add norm_gridStep_sub_taylorPoint_le htaylor) hturn)
    _ ≤ 1 / 2 ^ 64 := by norm_num

/-- The step of the run does not stretch, so an error grows by addition only. -/
theorem norm_gridStep_le_one : ‖gridPoint stepCos stepSin‖ ≤ 1 := by
  rw [gridPoint, Complex.norm_add_mul_I, Real.sqrt_le_one]
  norm_num [stepCos, stepSin]

/-- Rounding down to the grid moves a coordinate by at most one unit of it. -/
theorem abs_div_two_pow_sub_le (n : Nat) : |((n / 2 ^ 96 : ℕ) : ℝ) / 2 ^ 96 - n / 2 ^ 96 / 2 ^ 96| ≤ 1 / 2 ^ 96 := by
  have hdiv : (n : ℝ) = 2 ^ 96 * (n / 2 ^ 96 : ℕ) + (n % 2 ^ 96 : ℕ) := mod_cast (Nat.div_add_mod n (2 ^ 96)).symm
  have hlow : (0 : ℝ) ≤ (n % 2 ^ 96 : ℕ) := Nat.cast_nonneg _
  have hhigh : ((n % 2 ^ 96 : ℕ) : ℝ) ≤ 2 ^ 96 := mod_cast (Nat.mod_lt n (Nat.two_pow_pos 96)).le
  generalize n / 2 ^ 96 = k at hdiv ⊢
  generalize n % 2 ^ 96 = r at hdiv hlow hhigh
  rw [hdiv, abs_le]
  constructor <;> linarith

/-- One step of the run is the multiplication by the step, rounded down. -/
theorem norm_rotate_sub_le {x y : Nat} (h : y * stepSin ≤ x * stepCos) :
    ‖gridPoint ((x * stepCos - y * stepSin) / 2 ^ 96) ((x * stepSin + y * stepCos) / 2 ^ 96) -
      gridPoint x y * gridPoint stepCos stepSin‖ ≤ 1 / 2 ^ 95 := by
  have hre := abs_div_two_pow_sub_le (x * stepCos - y * stepSin)
  have him := abs_div_two_pow_sub_le (x * stepSin + y * stepCos)
  generalize (x * stepCos - y * stepSin) / 2 ^ 96 = x' at hre ⊢
  generalize (x * stepSin + y * stepCos) / 2 ^ 96 = y' at him ⊢
  rw [Nat.cast_sub h] at hre
  push_cast at hre him
  have hsplit : gridPoint x' y' - gridPoint x y * gridPoint stepCos stepSin =
      ((x' / 2 ^ 96 - (x * stepCos - y * stepSin) / 2 ^ 96 / 2 ^ 96 : ℝ) : ℂ) +
        ((y' / 2 ^ 96 - (x * stepSin + y * stepCos) / 2 ^ 96 / 2 ^ 96 : ℝ) : ℂ) * Complex.I := by
    simp only [gridPoint]
    push_cast
    ring_nf
    rw [Complex.I_sq]
    ring
  rw [hsplit]
  refine (norm_ofReal_add_mul_I_le _ _).trans ((add_le_add hre him).trans_eq ?_)
  norm_num

/-- The error a run has gathered after q steps. -/
theorem norm_rotate_sub_circlePoint_le {x y q : Nat} (h : y * stepSin ≤ x * stepCos)
    (hz : ‖gridPoint x y - circlePoint (q * stepAngle)‖ ≤ q / 2 ^ 63) :
    ‖gridPoint ((x * stepCos - y * stepSin) / 2 ^ 96) ((x * stepSin + y * stepCos) / 2 ^ 96) -
      circlePoint ((q + 1 : ℕ) * stepAngle)‖ ≤ (q + 1 : ℕ) / 2 ^ 63 := by
  have hrotate := norm_rotate_sub_le h
  have hstep := norm_gridStep_sub_le
  have hone := norm_gridStep_le_one
  generalize gridPoint ((x * stepCos - y * stepSin) / 2 ^ 96) ((x * stepSin + y * stepCos) / 2 ^ 96) = z' at hrotate ⊢
  generalize gridPoint x y = z at hrotate hz
  generalize gridPoint stepCos stepSin = w at hrotate hstep hone
  have hangle : circlePoint ((q + 1 : ℕ) * stepAngle) = circlePoint (q * stepAngle) * circlePoint stepAngle := by
    rw [Nat.cast_succ, add_one_mul, circlePoint_add]
  calc ‖z' - circlePoint ((q + 1 : ℕ) * stepAngle)‖
      = ‖(z' - z * w) + (z - circlePoint (q * stepAngle)) * w +
          circlePoint (q * stepAngle) * (w - circlePoint stepAngle)‖ := by rw [hangle]; congr 1; ring
    _ ≤ ‖z' - z * w‖ + ‖z - circlePoint (q * stepAngle)‖ * ‖w‖ + 1 * ‖w - circlePoint stepAngle‖ := by
        rw [← norm_mul, ← norm_circlePoint (q * stepAngle), ← norm_mul]
        exact norm_add₃_le
    _ ≤ 1 / 2 ^ 95 + q / 2 ^ 63 * 1 + 1 * (1 / 2 ^ 64) := by gcongr
    _ ≤ (q + 1 : ℕ) / 2 ^ 63 := by push_cast; linarith

/-! ## The quarter wave -/

/-- A table entry is finite and within 2^-50 of an exact value (`10_state.md` R37). -/
def AccurateEntry (entry : Option Word) (exact : ℝ) : Prop :=
  ∃ neg u, entry.map f64 = some (.fin neg u) ∧ |((signedUnits neg u : ℤ) : ℝ) / 2 ^ 1074 - exact| ≤ 1 / 2 ^ 50

theorem nearPattern_spec {v x : Nat} (h : nearPattern v x = true) :
    ∃ u, f64 (BitVec.ofNat 64 v) = .fin false u ∧ |(u : ℝ) / 2 ^ 1074 - x / 2 ^ 96| ≤ 1 / 2 ^ 51 := by
  unfold nearPattern at h
  split at h
  case h_2 => cases h
  case h_1 u hu =>
    simp only [Bool.and_eq_true, decide_eq_true_eq] at h
    obtain ⟨hlow, hhigh⟩ := h
    have hlow' : (u : ℝ) * 2 ^ 96 ≤ x * 2 ^ 1074 + 2 ^ 1119 := mod_cast hlow
    have hhigh' : (x : ℝ) * 2 ^ 1074 ≤ u * 2 ^ 96 + 2 ^ 1119 := mod_cast hhigh
    refine ⟨u, hu, ?_⟩
    have hscale : (u : ℝ) / 2 ^ 1074 - x / 2 ^ 96 = (u * 2 ^ 96 - x * 2 ^ 1074) / (2 ^ 1074 * 2 ^ 96) := by
      rw [div_sub_div _ _ (by positivity) (by positivity), mul_comm (2 ^ 1074) (x : ℝ)]
    have hunit : (2 : ℝ) ^ 1119 / (2 ^ 1074 * 2 ^ 96) = 1 / 2 ^ 51 := by
      rw [← pow_add, div_eq_div_iff (by positivity) (by positivity), ← pow_add, one_mul]
    rw [hscale, abs_div, abs_of_pos (by positivity : (0 : ℝ) < 2 ^ 1074 * 2 ^ 96), ← hunit]
    gcongr
    exact abs_sub_le_iff.2 ⟨sub_le_iff_le_add'.2 hlow', sub_le_iff_le_add'.2 hhigh'⟩

/-- An entry near the run is near the cosine. -/
theorem accurateEntry_of_nearPattern {v x y q : Nat} (hv : nearPattern v x = true) (hq : q ≤ 1024)
    (hz : ‖gridPoint x y - circlePoint (q * stepAngle)‖ ≤ q / 2 ^ 63) :
    AccurateEntry (some (BitVec.ofNat 64 v)) (Real.cos (q * stepAngle)) := by
  obtain ⟨u, hu, hnear⟩ := nearPattern_spec hv
  refine ⟨false, u, congrArg some hu, ?_⟩
  have hre : |(x : ℝ) / 2 ^ 96 - Real.cos (q * stepAngle)| ≤ (q : ℝ) / 2 ^ 63 := by
    rw [← gridPoint_re x y, ← circlePoint_re, ← Complex.sub_re]
    exact (Complex.abs_re_le_norm _).trans hz
  have hq' : (q : ℝ) ≤ 1024 := mod_cast hq
  calc |((signedUnits false u : ℤ) : ℝ) / 2 ^ 1074 - Real.cos (q * stepAngle)|
      ≤ |(u : ℝ) / 2 ^ 1074 - x / 2 ^ 96| + |(x : ℝ) / 2 ^ 96 - Real.cos (q * stepAngle)| := abs_sub_le _ _ _
    _ ≤ 1 / 2 ^ 51 + (q : ℝ) / 2 ^ 63 := add_le_add hnear hre
    _ ≤ 1 / 2 ^ 50 := by linarith

/-- A run that starts near the circle shows each of its entries accurate. -/
theorem accurateEntry_of_cosineRun {vs : List Nat} {x y q i : Nat} (hrun : cosineRun vs x y = true)
    (hz : ‖gridPoint x y - circlePoint (q * stepAngle)‖ ≤ q / 2 ^ 63) (hi : i < vs.length) (hq : q + vs.length ≤ 1024) :
    AccurateEntry (vs[i]?.map (BitVec.ofNat 64)) (Real.cos ((q + i : ℕ) * stepAngle)) := by
  induction vs generalizing x y q i with
  | nil => cases hi
  | cons v vs ih =>
    simp only [cosineRun, forceNat_eq, Bool.and_eq_true, decide_eq_true_eq] at hrun
    obtain ⟨⟨hv, hle⟩, hrest⟩ := hrun
    rw [List.length_cons] at hi hq
    cases i with
    | zero => exact accurateEntry_of_nearPattern hv (by omega) hz
    | succ i =>
      have hindex : q + (i + 1) = q + 1 + i := by omega
      rw [List.getElem?_cons_succ, hindex]
      exact ih hrest (norm_rotate_sub_circlePoint_le hle hz) (by omega) (by omega)

theorem length_quarterWave : TwiddleTable.quarterWave.length = 1025 := by decide +kernel

theorem quarterWave_lt : ∀ v ∈ TwiddleTable.quarterWave, v < 2 ^ 63 := by decide +kernel

/-- The quarter wave from 0 to a right angle. -/
theorem quarterWave_accurate {q : Nat} (hq : q ≤ 1024) :
    AccurateEntry (TwiddleTable.quarterWave[q]?.map (BitVec.ofNat 64)) (Real.cos (q * stepAngle)) := by
  rcases hq.lt_or_eq with hlt | rfl
  · have hstart : ‖gridPoint (2 ^ 96) 0 - circlePoint ((0 : ℕ) * stepAngle)‖ ≤ (0 : ℕ) / 2 ^ 63 := by
      norm_num [gridPoint, circlePoint]
    have hlen : (TwiddleTable.quarterWave.take 1024).length = 1024 := by rw [List.length_take, length_quarterWave]; rfl
    have h := accurateEntry_of_cosineRun cosineRun_quarterWave hstart (i := q) (by omega) (by omega)
    rwa [List.getElem?_take_of_lt hlt, Nat.zero_add] at h
  · have hright : ((1024 : ℕ) : ℝ) * stepAngle = Real.pi / 2 := by
      rw [stepAngle]
      push_cast
      ring
    have hentry : TwiddleTable.quarterWave[1024]? = some 0 := by decide +kernel
    rw [hright, Real.cos_pi_div_two, hentry]
    exact ⟨false, 0, by decide, by simp [signedUnits]⟩

/-! ## The table by its symmetries -/

/-- Setting the sign bit of a pattern negates its value. -/
theorem f64_add_signBit {v : Nat} (hv : v < 2 ^ 63) :
    f64 (BitVec.ofNat 64 (2 ^ 63 + v)) = fneg (f64 (BitVec.ofNat 64 v)) := by
  have hpos : (BitVec.ofNat 64 v).getLsbD 63 = false := by
    rw [BitVec.getLsbD, BitVec.toNat_ofNat, Nat.testBit_eq_decide_div_mod_eq, decide_eq_false_iff_not]
    omega
  have hneg : (BitVec.ofNat 64 (2 ^ 63 + v)).getLsbD 63 = true := by
    rw [BitVec.getLsbD, BitVec.toNat_ofNat, Nat.testBit_eq_decide_div_mod_eq, decide_eq_true_eq]
    omega
  have hexp : (BitVec.ofNat 64 (2 ^ 63 + v)).toNat / 2 ^ 52 % 2048 = (BitVec.ofNat 64 v).toNat / 2 ^ 52 % 2048 := by
    rw [BitVec.toNat_ofNat, BitVec.toNat_ofNat]
    omega
  have hfrac : (BitVec.ofNat 64 (2 ^ 63 + v)).toNat % 2 ^ 52 = (BitVec.ofNat 64 v).toNat % 2 ^ 52 := by
    rw [BitVec.toNat_ofNat, BitVec.toNat_ofNat]
    omega
  simp only [f64, hpos, hneg, hexp, hfrac]
  split_ifs <;> rfl

theorem AccurateEntry.neg {v : Nat} {a : ℝ} (hv : v < 2 ^ 63) (h : AccurateEntry (some (BitVec.ofNat 64 v)) a) :
    AccurateEntry (some (BitVec.ofNat 64 (2 ^ 63 + v))) (-a) := by
  obtain ⟨s, u, hu, hnear⟩ := h
  rw [Option.map_some, Option.some.injEq] at hu
  refine ⟨!s, u, by rw [Option.map_some, f64_add_signBit hv, hu]; rfl, ?_⟩
  rw [signedUnits_not, Int.cast_neg, neg_div, neg_sub_neg, abs_sub_comm]
  exact hnear

theorem getElem?_referenceRomc_low {q : Nat} (hq : q ≤ 1024) :
    referenceRomc[q]? = TwiddleTable.quarterWave[q]?.map (BitVec.ofNat 64) := by
  rw [referenceRomc, List.getElem?_append_left (by rw [List.length_map, length_quarterWave]; omega), List.getElem?_map]

theorem getElem?_referenceRomc_high {q : Nat} (hlow : 1024 < q) (hq : q < 2048) :
    referenceRomc[q]? = TwiddleTable.quarterWave[2048 - q]?.map (fun v => BitVec.ofNat 64 (2 ^ 63 + v)) := by
  have hindex : 1025 - 1 - (1 + (q - 1025)) = 2048 - q := by omega
  rw [referenceRomc, List.getElem?_append_right (by rw [List.length_map, length_quarterWave]; omega), List.length_map,
    length_quarterWave, List.getElem?_map, List.getElem?_dropLast, List.getElem?_drop, List.length_drop,
    List.length_reverse, length_quarterWave, if_pos (by omega),
    List.getElem?_reverse (by rw [length_quarterWave]; omega), length_quarterWave, hindex]

theorem getElem?_referenceRoms_low {q : Nat} (hq : q ≤ 1024) :
    referenceRoms[q]? = TwiddleTable.quarterWave[1024 - q]?.map (BitVec.ofNat 64) := by
  rw [referenceRoms,
    List.getElem?_append_left (by rw [List.length_map, List.length_reverse, length_quarterWave]; omega),
    List.getElem?_map, List.getElem?_reverse (by rw [length_quarterWave]; omega), length_quarterWave]

theorem getElem?_referenceRoms_high {q : Nat} (hlow : 1024 < q) (hq : q < 2048) :
    referenceRoms[q]? = TwiddleTable.quarterWave[q - 1024]?.map (BitVec.ofNat 64) := by
  have hindex : 1 + (q - 1025) = q - 1024 := by omega
  rw [referenceRoms,
    List.getElem?_append_right (by rw [List.length_map, List.length_reverse, length_quarterWave]; omega),
    List.length_map, List.length_reverse, length_quarterWave, List.getElem?_map, List.getElem?_dropLast,
    List.getElem?_drop, List.length_drop, length_quarterWave, if_pos (by omega), hindex]

/-- ROMC: the quarter wave, then minus the quarter wave from the other end. -/
theorem referenceRomc_accurate {q : Nat} (hq : q < 2048) :
    AccurateEntry referenceRomc[q]? (Real.cos (q * stepAngle)) := by
  by_cases hlow : q ≤ 1024
  · rw [getElem?_referenceRomc_low hlow]
    exact quarterWave_accurate hlow
  · have hmirror : (q : ℝ) * stepAngle = Real.pi - (2048 - q : ℕ) * stepAngle := by
      rw [Nat.cast_sub hq.le, stepAngle]
      push_cast
      ring
    have hlen : 2048 - q < TwiddleTable.quarterWave.length := by rw [length_quarterWave]; omega
    have h := quarterWave_accurate (q := 2048 - q) (by omega)
    rw [getElem?_referenceRomc_high (by omega) hq, hmirror, Real.cos_pi_sub]
    rw [List.getElem?_eq_getElem hlen] at h ⊢
    exact h.neg (quarterWave_lt _ (List.getElem_mem hlen))

/-- ROMS: the quarter wave from its end, then from its beginning. -/
theorem referenceRoms_accurate {q : Nat} (hq : q < 2048) :
    AccurateEntry referenceRoms[q]? (Real.sin (q * stepAngle)) := by
  by_cases hlow : q ≤ 1024
  · have hmirror : (q : ℝ) * stepAngle = Real.pi / 2 - (1024 - q : ℕ) * stepAngle := by
      rw [Nat.cast_sub hlow, stepAngle]
      push_cast
      ring
    rw [getElem?_referenceRoms_low hlow, hmirror, Real.sin_pi_div_two_sub]
    exact quarterWave_accurate (by omega)
  · have hturned : (q : ℝ) * stepAngle = (q - 1024 : ℕ) * stepAngle + Real.pi / 2 := by
      rw [Nat.cast_sub (by omega), stepAngle]
      push_cast
      ring
    rw [getElem?_referenceRoms_high (by omega) hq, hturned, Real.sin_add_pi_div_two]
    exact quarterWave_accurate (by omega)

/-- Settles O30: the quarter wave lies near a fixed-point run whose error is at most 2^-53, and the table is the
quarter wave by its symmetries. -/
theorem referenceRomMeetsTheAccuracyLaw : Obligations.ReferenceRomMeetsTheAccuracyLaw := by
  refine ⟨referenceConfig_wf, fun q hq => ?_⟩
  have hangle : 2 * Real.pi * q / referenceConfig.nMax = q * stepAngle := by
    have hmax : referenceConfig.nMax = 4096 := rfl
    rw [hmax, stepAngle]
    push_cast
    ring
  rw [hangle]
  exact ⟨referenceRomc_accurate hq, referenceRoms_accurate hq⟩

end Sys2Proof.Machine
end

section
/-! PROOF. The aperture (`20_memory.md`): CMD writes of legal words (R68), accesses to the buffer elements and the ROM
entries (R66 to R68, R71), what a read leaves alone (R70), and the order of the answers (R72, R79). -/

namespace Sys2Proof.Machine

/-- Settles O6: in the host's turn `exec` is the issue of the command. -/
theorem cmdWriteRunsTheDecodedCommand : Obligations.CmdWriteRunsTheDecodedCommand := by
  intro s w i h hd
  rw [exec_host i rfl]
  exact step_of_presents_legal h hd

/-! ## Where the windows lie -/

/-- Every offset of a buffer element names one (R62). -/
theorem target_of_bufferOffset {c : Config} {off : Nat} (hlog : c.log2nMax ≤ 17) (h : bufferOffset c off) :
    target c off = .buffer := by
  obtain ⟨haligned, hwindow⟩ := h
  have hmax := nMax_le hlog
  rw [← Nat.div_mul_cancel (Nat.dvd_of_mod_eq_zero haligned)]
  rcases hwindow with hreal | himag | hmag
  · exact inBuffers_real le_rfl hmax off hreal
  · exact inBuffers_imag le_rfl hmax off himag
  · exact inBuffers_mag le_rfl (by omega) off hmag

section
variable {c : Config} {q : Nat} (hlog : c.log2nMax ≤ 17) (hq : q < c.nMax / 2)
include hlog hq

theorem target_romc : target c (0x400000 + 8 * q) = .romc q := by
  have hmax := nMax_le hlog
  have hwindow : (0x400000 + 8 * q) / windowSpan = 4 := by unfold windowSpan; omega
  have hindex : (0x400000 + 8 * q) % windowSpan / 8 = q := by unfold windowSpan; omega
  simp only [target, hwindow, hindex, if_pos hq]

theorem target_roms : target c (0x500000 + 8 * q) = .roms q := by
  have hmax := nMax_le hlog
  have hwindow : (0x500000 + 8 * q) / windowSpan = 5 := by unfold windowSpan; omega
  have hindex : (0x500000 + 8 * q) % windowSpan / 8 = q := by unfold windowSpan; omega
  simp only [target, hwindow, hindex, if_pos hq]

end

/-! ## Buffer elements -/

theorem legalAccess_of_aligned {off : Nat} (h : off % 8 = 0) : legalAccess off 8 = true := by
  simp [legalAccess, h]

/-- The bytes of a buffer element that holds a word are at its host addresses (R66). -/
theorem shows_of_readWord {s : State} {off : BitVec 23} {v : Word} (haligned : off.toNat % 8 = 0)
    (htarget : target s.cfg off.toNat = .buffer) (hv : Memory.readWord s.mem off.toNat = some v) :
    s.shows off.toNat v := by
  intro b hb
  rw [hostByte_busAddress haligned off.isLt hb, htarget, State.contents, hv]
  rfl

section
variable {s : State} {off : BitVec 23} (hidle : s.status.busy = false) (haligned : off.toNat % 8 = 0)
  (htarget : target s.cfg off.toNat = .buffer)
include hidle haligned htarget

/-- A read of a buffer element of an idle block answers what it holds (R67). -/
theorem step_of_buffer_read (h : s.serves (.read off 8)) :
    step s = .next (State.readElement { s with schedule := s.schedule.tail, requests := s.requests.tail }
      (Memory.readWord s.mem off.toNat)) := by
  refine step_of_serves h ?_
  simp only [State.serve, State.hostRead, if_pos (legalAccess_of_aligned haligned), htarget, hidle]
  rfl

/-- A write to a buffer element of an idle block stores the word (R68). -/
theorem step_of_buffer_write {v : Word} (h : s.serves (.write off 8 v)) :
    step s = .next { s.answered writeOkay with mem := Memory.writeWord s.mem off.toNat v } := by
  refine step_of_serves h ?_
  simp only [State.serve, State.hostWrite, if_pos (legalAccess_of_aligned haligned), htarget, hidle]
  rfl

end

/-- Settles O42: the write is one `Memory.writeWord`, which its own element reads back and no byte outside it sees. -/
theorem bufferWriteStoresTheWord : Obligations.BufferWriteStoresTheWord := by
  intro s off v hlog h hidle hoff
  have htarget := target_of_bufferOffset hlog hoff
  obtain ⟨haligned, -⟩ := hoff
  have hread := Memory.readWord_writeWord s.mem off.toNat v
  exact ⟨_, step_of_buffer_write hidle haligned htarget h, rfl, hread, shows_of_readWord haligned htarget hread,
    fun a ha => Memory.readByte_writeWords_outside s.mem ha⟩

/-- Settles O43: `readElement` answers the word the element holds, or draws one. -/
theorem bufferReadAnswersTheElement : Obligations.BufferReadAnswersTheElement := by
  intro s off hlog h hidle hoff
  have htarget := target_of_bufferOffset hlog hoff
  obtain ⟨haligned, -⟩ := hoff
  have hstep := step_of_buffer_read hidle haligned htarget h
  constructor
  · intro v hv
    rw [hv] at hstep
    exact ⟨hstep, shows_of_readWord haligned htarget hv⟩
  · intro hnone
    rw [hnone] at hstep
    exact hstep

/-! ## ROM entries -/

/-- Settles O44: a ROM entry is read like a register, busy or not. -/
theorem romReadsAnswerTheEntry : Obligations.RomReadsAnswerTheEntry := by
  intro s off q w hlog h hq
  constructor
  · intro hoff hw
    have htarget : target s.cfg off.toNat = .romc q := hoff ▸ target_romc hlog hq
    exact step_of_read_contents h (by omega) htarget nofun hw
  · intro hoff hw
    have htarget : target s.cfg off.toNat = .roms q := hoff ▸ target_roms hlog hq
    exact step_of_read_contents h (by omega) htarget nofun hw

/-! ## Any read -/

/-- Serving a read, whatever its offset and width, gives an answer and perhaps draws a free value. -/
theorem serve_read (u : State) (off : BitVec 23) (width : Nat) :
    ∃ a d, u.serve (.read off width) = ({ u.respond a with draws := d }, none) := by
  rcases serve_cases u (.read off width) with h | ⟨_, hr, _⟩ | ⟨_, hr, _⟩ | ⟨_, _, hr, _⟩ | ⟨_, hr, _⟩ | ⟨_, _, hr, _⟩
  · exact h
  all_goals cases hr

/-- Settles O45: of the cases of a served transaction a read is only the first. -/
theorem readsChangeNoState : Obligations.ReadsChangeNoState := by
  intro s off width h
  obtain ⟨a, d, hs⟩ := serve_read { s with schedule := s.schedule.tail, requests := s.requests.tail } off width
  exact ⟨a, _, step_of_serves h hs, rfl⟩

/-! ## The order of the answers -/

/-- From `s` to `t` no transaction was taken, or the oldest one and it was answered after all earlier answers
(R72, R79). -/
def PortsAdvance (s t : State) : Prop :=
  (t.requests = s.requests ∧ t.responses = s.responses) ∨
    ∃ r a, s.requests = r :: t.requests ∧ t.responses = s.responses ++ [a]

/-- A served transaction gets one answer and takes no other from the queue. -/
theorem serve_ports (u : State) (r : Request) :
    (u.serve r).1.requests = u.requests ∧ ∃ a, (u.serve r).1.responses = u.responses ++ [a] := by
  rcases serve_cases u r with ⟨a, d, h⟩ | ⟨v, -, h⟩ | ⟨v, -, h⟩ | ⟨off, v, -, -, -, -, h⟩ | ⟨w, -, -, h⟩ |
    ⟨w, i, -, -, h⟩ <;> rw [h]
  case inr.inr.inr.inr.inl =>
    obtain ⟨e, -, hrej⟩ := issueIllegal_eq_reject { u.respond writeOkay with turn := .host }
    rw [hrej]
    exact ⟨rfl, writeOkay, rfl⟩
  all_goals exact ⟨rfl, _, rfl⟩

/-- The host's step takes the oldest transaction or none; during reset it may answer it without effect
(`70_reset_and_hazards.md` R210). -/
theorem hostStep_ports (u : State) : PortsAdvance u u.hostStep.1 := by
  cases hq : u.requests with
  | nil =>
    left
    rw [State.hostStep, hq]
    dsimp only
    split <;> exact ⟨hq, rfl⟩
  | cons r rest =>
    cases hr : u.rst with
    | false =>
      obtain ⟨hreqs, a, hresps⟩ := serve_ports { u with requests := rest } r
      rw [hostStep_serve hr hq]
      exact .inr ⟨r, a, hq.trans (by rw [hreqs]), hresps⟩
    | true =>
      simp only [State.hostStep, hq, hr, if_true]
      cases u.cfg.resetBus with
      | stall => exact .inl ⟨rfl, rfl⟩
      | error => exact .inr ⟨r, busError r, hq, rfl⟩

theorem engineStep_ports (u : State) : PortsAdvance u u.engineStep.1 := by
  rcases engineStep_cases u with ⟨_, h⟩ | ⟨_, _, h⟩ | ⟨i, _, _, h⟩ <;> rw [h] <;> exact .inl ⟨rfl, rfl⟩

theorem driveRst_ports (u : State) (level : Bool) : PortsAdvance u (u.driveRst level) := by
  left
  unfold State.driveRst
  split <;> exact ⟨rfl, rfl⟩

theorem front_ports (s : State) : PortsAdvance s s.front.1 := by
  rcases front_cases s with ⟨level, _, h⟩ | ⟨d, h⟩ | h
  · rw [h]
    exact driveRst_ports { s with schedule := s.schedule.tail } level
  · rw [h]
    exact hostStep_ports { s with schedule := s.schedule.tail, delay := d }
  · rw [h]
    exact engineStep_ports { s with schedule := s.schedule.tail }

/-- A command leaves both ports alone, in either turn. -/
theorem exec_ports {i : Instr} {s t : State} (h : exec i s = .next t) :
    t.requests = s.requests ∧ t.responses = s.responses := by
  cases hturn : s.turn with
  | host =>
    obtain ⟨-, -, -, -, -, hreqs, hresps, -⟩ := issue_frame s i
    rw [exec_host i hturn, Host.Outcome.next.injEq] at h
    exact h ▸ ⟨hreqs, hresps⟩
  | engine =>
    obtain ⟨-, -, -, -, -, hreqs, hresps, -⟩ := effectOf_frame i s
    rw [exec_engine i hturn, Host.Outcome.next.injEq] at h
    exact h ▸ ⟨hreqs, hresps⟩

/-- Settles O46: the front of the step takes the transaction, and the command it runs leaves the ports alone. -/
theorem transactionsAreAnsweredInOrder : Obligations.TransactionsAreAnsweredInOrder := by
  intro s t h
  have hfront := front_ports s
  cases hf : s.front with
  | mk u oi =>
    rw [hf] at hfront
    cases oi with
    | none =>
      rw [step_of_front_none hf, Host.Outcome.next.injEq] at h
      exact h ▸ hfront
    | some i =>
      rw [step_of_front_some hf] at h
      obtain ⟨hreqs, hresps⟩ := exec_ports h
      rw [hreqs, hresps]
      exact hfront

end Sys2Proof.Machine
end

section
/-! PROOF. The encoding (`30_encoding.md` R90 to R98): the three fields determine the word, decoding inverts encoding in
both directions, a word selects its row of the table by mask and match, and the illegal words are those of R93. -/

namespace Sys2Proof.Machine

/-! ## The three fields as numbers -/

theorem opField_toNat (w : Word) : (opField w).toNat = w.toNat % 2 ^ 8 := by
  simp only [opField, BitVec.extractLsb'_toNat, Nat.shiftRight_zero]

theorem rsvField_toNat (w : Word) : (rsvField w).toNat = w.toNat / 2 ^ 8 % 2 ^ 24 := by
  simp only [rsvField, BitVec.extractLsb'_toNat, Nat.shiftRight_eq_div_pow]

theorem lenField_toNat (w : Word) : (lenField w).toNat = w.toNat / 2 ^ 32 := by
  have hw := w.isLt
  simp only [lenField, BitVec.extractLsb'_toNat, Nat.shiftRight_eq_div_pow]
  omega

/-- The fields cover the whole word (R90). -/
theorem word_eq_of_fields {v w : Word} (hop : opField v = opField w) (hrsv : rsvField v = rsvField w)
    (hlen : lenField v = lenField w) : v = w := by
  have ho := congrArg BitVec.toNat hop
  have hr := congrArg BitVec.toNat hrsv
  have hl := congrArg BitVec.toNat hlen
  rw [opField_toNat, opField_toNat] at ho
  rw [rsvField_toNat, rsvField_toNat] at hr
  rw [lenField_toNat, lenField_toNat] at hl
  exact BitVec.eq_of_toNat_eq (by omega)

/-- The low half of a word is OP exactly when RSV is 0. -/
theorem lowHalf_eq_iff (w : Word) (op : BitVec 8) :
    w &&& 0x00000000FFFFFFFF#64 = op.setWidth 64 ↔ rsvField w = 0#24 ∧ opField w = op := by
  have hmask : (w &&& 0x00000000FFFFFFFF#64).toNat = w.toNat % 2 ^ 32 :=
    Nat.and_two_pow_sub_one_eq_mod w.toNat 32
  have hop : (op.setWidth 64).toNat = op.toNat := BitVec.toNat_setWidth_of_le (by decide)
  have hlt := op.isLt
  rw [← BitVec.toNat_inj, ← BitVec.toNat_inj, ← BitVec.toNat_inj, hmask, hop, rsvField_toNat, opField_toNat,
    BitVec.toNat_ofNat]
  omega

/-! ## Decoding by fields -/

theorem opcode_lt (i : Instr) : i.opcode.toNat < 7 := by cases i <;> simp [Instr.opcode]

theorem len_eq_zero_of_opcode_eq_zero {i : Instr} (h : i.opcode = 0#8) : i.len = 0 := by
  cases i with
  | nop => rfl
  | config | bitrev | bfly | fft | mag | analyze => simp [Instr.opcode] at h

theorem decode_of_fields {w : Word} {i : Instr} (hrsv : rsvField w = 0#24) (hop : opField w = i.opcode)
    (hlen : (lenField w).toNat = i.len) : decode w = .ok i := by
  cases i with
  | nop =>
    have hzero : lenField w = 0#32 := BitVec.eq_of_toNat_eq hlen
    simp [decode, hrsv, hop, hzero, Instr.opcode]
  | config | bitrev | bfly | fft | mag | analyze =>
    simp [decode, hrsv, hop, hlen, Instr.opcode, Instr.len]

/-- Everything decoding can answer: the three reasons of R93, or the command whose OP and LEN the word holds. -/
theorem decode_cases (w : Word) :
    (decode w = .error .reservedBits ∧ rsvField w ≠ 0#24) ∨
    (decode w = .error .reservedOpcode ∧ 7 ≤ (opField w).toNat) ∨
    (decode w = .error .nopWithLength ∧ opField w = 0#8 ∧ lenField w ≠ 0#32) ∨
    ∃ i, decode w = .ok i ∧ rsvField w = 0#24 ∧ opField w = i.opcode ∧ (lenField w).toNat = i.len := by
  by_cases hrsv : rsvField w = 0#24
  case neg => exact .inl ⟨by simp [decode, hrsv], hrsv⟩
  right
  have legal (i : Instr) (hop : (opField w).toNat = i.opcode.toNat) (hlen : (lenField w).toNat = i.len) :
      ∃ i, decode w = .ok i ∧ rsvField w = 0#24 ∧ opField w = i.opcode ∧ (lenField w).toNat = i.len :=
    ⟨i, decode_of_fields hrsv (BitVec.eq_of_toNat_eq hop) hlen, hrsv, BitVec.eq_of_toNat_eq hop, hlen⟩
  match hop : (opField w).toNat with
  | 0 =>
    by_cases hlen : lenField w = 0#32
    · exact .inr (.inr (legal .nop hop (congrArg BitVec.toNat hlen)))
    · exact .inr (.inl ⟨by simp [decode, hrsv, hop, hlen], BitVec.eq_of_toNat_eq hop, hlen⟩)
  | 1 => exact .inr (.inr (legal (.config _) hop rfl))
  | 2 => exact .inr (.inr (legal (.bitrev _) hop rfl))
  | 3 => exact .inr (.inr (legal (.bfly _) hop rfl))
  | 4 => exact .inr (.inr (legal (.fft _) hop rfl))
  | 5 => exact .inr (.inr (legal (.mag _) hop rfl))
  | 6 => exact .inr (.inr (legal (.analyze _) hop rfl))
  | n + 7 => exact .inl ⟨by simp [decode, hrsv, hop], by omega⟩

theorem decode_eq_ok_iff (w : Word) (i : Instr) :
    decode w = .ok i ↔ rsvField w = 0#24 ∧ opField w = i.opcode ∧ (lenField w).toNat = i.len := by
  constructor
  · intro h
    rcases decode_cases w with ⟨he, _⟩ | ⟨he, _⟩ | ⟨he, _⟩ | ⟨j, hj, hfields⟩
    case inr.inr.inr =>
      cases hj.symm.trans h
      exact hfields
    all_goals cases he.symm.trans h
  · rintro ⟨hrsv, hop, hlen⟩
    exact decode_of_fields hrsv hop hlen

/-- A word selects the row of a command by the low half of its bits (R92). -/
theorem decode_eq_ok_iff_lowHalf (w : Word) (i : Instr) :
    decode w = .ok i ↔ w &&& 0x00000000FFFFFFFF#64 = i.opcode.setWidth 64 ∧ i.len = w.toNat / 2 ^ 32 := by
  rw [decode_eq_ok_iff, lowHalf_eq_iff, lenField_toNat, and_assoc, @eq_comm _ i.len]

/-- NOP's mask covers the whole word, its LEN being 0 (R92). -/
theorem decode_eq_nop_iff (w : Word) :
    decode w = .ok .nop ↔ w &&& 0xFFFFFFFFFFFFFFFF#64 = 0x0000000000000000#64 := by
  have hall : w &&& 0xFFFFFFFFFFFFFFFF#64 = w := BitVec.and_allOnes
  rw [hall]
  constructor
  · intro h
    obtain ⟨hrsv, hop, hlen⟩ := (decode_eq_ok_iff w .nop).1 h
    exact word_eq_of_fields hop hrsv (BitVec.eq_of_toNat_eq hlen)
  · rintro rfl
    rfl

/-- The illegal words (R93). -/
theorem decode_eq_error_iff (w : Word) :
    (∃ e, decode w = .error e) ↔
      7 ≤ (opField w).toNat ∨ rsvField w ≠ 0#24 ∨ (opField w = 0#8 ∧ lenField w ≠ 0#32) := by
  rcases decode_cases w with ⟨he, hrsv⟩ | ⟨he, hop⟩ | ⟨he, hnop⟩ | ⟨i, hi, hrsv, hop, hlen⟩
  · exact iff_of_true ⟨_, he⟩ (.inr (.inl hrsv))
  · exact iff_of_true ⟨_, he⟩ (.inl hop)
  · exact iff_of_true ⟨_, he⟩ (.inr (.inr hnop))
  · refine iff_of_false (fun ⟨e, he⟩ => nomatch hi.symm.trans he) ?_
    rintro (h7 | hbits | ⟨hzero, hlength⟩)
    · exact absurd (opcode_lt i) (by rw [← hop]; omega)
    · exact hbits hrsv
    · exact hlength (BitVec.eq_of_toNat_eq (hlen.trans (len_eq_zero_of_opcode_eq_zero (hop.symm.trans hzero))))

/-! ## The obligations -/

/-- Settles O1: the word's fields are the command's, and they select it. -/
theorem decodeOfEncodeIsTheCommand : Obligations.DecodeOfEncodeIsTheCommand := by
  intro i hwf
  obtain ⟨hop, hrsv, hlen⟩ := Laws.RoundTrip.ofWellFormed i hwf
  exact decode_of_fields hrsv hop hlen

/-- Settles O2: the word and the encoding have the same three fields. -/
theorem encodeOfDecodeIsTheWord : Obligations.EncodeOfDecodeIsTheWord := by
  intro w i h
  obtain ⟨hrsv, hop, hlen⟩ := (decode_eq_ok_iff w i).1 h
  have hwf : i.wellFormed = true := decide_eq_true (hlen ▸ (lenField w).isLt)
  obtain ⟨hop', hrsv', hlen'⟩ := Laws.RoundTrip.ofWellFormed i hwf
  exact ⟨word_eq_of_fields (hop'.trans hop.symm) (hrsv'.trans hrsv.symm)
    (BitVec.eq_of_toNat_eq (hlen'.trans hlen.symm)), hwf⟩

/-- Settles O3: the rows with a LEN differ only in the opcode their match holds. -/
theorem decodeSelectsTheTableRow : Obligations.DecodeSelectsTheTableRow := by
  intro w
  have row := decode_eq_ok_iff_lowHalf w
  exact ⟨decode_eq_nop_iff w, fun n =>
    ⟨row (.config n), row (.bitrev n), row (.bfly n), row (.fft n), row (.mag n), row (.analyze n)⟩⟩

/-- Settles O4: an illegal word never reaches `exec`, and BUSY is looked at before ILLEGAL_COMMAND (R110). -/
theorem illegalWordsAreRejected : Obligations.IllegalWordsAreRejected := by
  intro w
  refine ⟨decode_eq_error_iff w, ?_⟩
  rintro s h ⟨e, he⟩
  rw [step_of_presents_illegal h he]
  cases hbusy : s.status.busy <;> simp [State.issueIllegal, State.reject, State.answered, hbusy]

/-- Settles O5: each word of R98 is evaluated. -/
theorem writtenOutWordsDecode : Obligations.WrittenOutWordsDecode := by
  unfold Obligations.WrittenOutWordsDecode
  decide

end Sys2Proof.Machine
end

section
/-! PROOF. The command lifecycle (`40_control.md` R110 to R113): the engine's step, acceptance, the completions of NOP
and CONFIG, and what can change a byte of the buffers (`20_memory.md` R68, R71). -/

namespace Sys2Proof.Machine

/-! ## The engine's step -/

/-- Settles O7: the front of a step in which the engine moves is the pending command in the engine's turn. -/
theorem engineStepRunsThePendingCommand : Obligations.EngineStepRunsThePendingCommand := by
  intro s i hr hp h
  exact step_of_front_some (front_of_engineMoves hr hp h)

/-! ## Acceptance -/

/-- 0 is no valid size (`00_scope.md` R6). -/
theorem ne_zero_of_validSize {c : Config} {n : Nat} (h : validSize c n = true) : n ≠ 0 := by
  obtain ⟨l, -, -, rfl⟩ := (validSizesAreThePowersOfTwo c n).1 h
  exact (Nat.two_pow_pos l).ne'

/-- A checked command presented to an idle block is accepted (`40_control.md` R110). -/
theorem issue_eq_accept {s : State} {i : Instr} (hidle : s.status.busy = false) (hchecked : s.operandError i = none) :
    s.issue i = s.accept i := by
  simp [State.issue, hidle, hchecked]

/-- Settles O9: a valid size is not 0, so a LEN equal to SIZE.N passes the NOT_CONFIGURED check too. -/
theorem checkedCommandIsAccepted : Obligations.CheckedCommandIsAccepted := by
  intro i s hturn hidle hi
  have hchecked : s.operandError i = none := by
    refine operandError_eq_none.2 (hi.imp_right fun ⟨hvalid, hlen⟩ => ⟨hvalid, fun hc => ⟨?_, hlen hc⟩⟩)
    rw [← hlen hc]
    exact ne_zero_of_validSize hvalid
  rw [exec_host i hturn, issue_eq_accept hidle hchecked]
  rfl

/-! ## The completions of NOP and CONFIG -/

/-- Settles O12: NOP's own effect is the identity, so only `State.complete` writes. -/
theorem nopCompletesWithNoOtherEffect : Obligations.NopCompletesWithNoOtherEffect := by
  intro s hturn
  exact exec_engine .nop hturn

/-- Settles O13: CONFIG's own effect is `configEffect`, which writes SIZE. -/
theorem configCompletesBySettingSize : Obligations.ConfigCompletesBySettingSize := by
  intro n s hturn
  exact exec_engine (.config n) hturn

/-! ## The bytes of the buffers -/

/-- A served transaction changes a byte only as a write to its element while the block is idle (`20_memory.md` R68,
R71). -/
theorem ServeOutcome.byte_changed {u t : State} {r : Request} {a : Nat} (h : ServeOutcome u r t)
    (hne : Memory.readByte t.mem a ≠ Memory.readByte u.mem a) :
    u.status.busy = false ∧ ∃ off v, r = .write off 8 v ∧ inWindow off.toNat 1 a := by
  cases h with
  | stored off v hr hidle =>
    have hin : inWindow off.toNat 1 a := by
      by_contra hout
      exact hne (Memory.readByte_writeWords_outside u.mem hout)
    exact ⟨hidle, off, v, hr, hin⟩
  | answered | statusWritten | ctrlWritten | rejected | accepted => exact absurd rfl hne

/-- Settles O56: of the outcomes of a step the idle one keeps the buffers; the other three are the causes named. -/
theorem buffersChangeOnlyByCompletionWriteOrReset : Obligations.BuffersChangeOnlyByCompletionWriteOrReset := by
  intro s t a h hne
  cases step_outcome h with
  | reset level reqs resps hr => exact .inr (.inr ⟨hr, rfl⟩)
  | idle => exact absurd rfl hne
  | completed i hr hp => exact .inl ⟨i, hp, rfl, rfl, rfl⟩
  | served r rest d hr hq hs =>
    obtain ⟨hidle, off, v, rfl, hin⟩ := hs.byte_changed hne
    exact .inr (.inl ⟨hidle, off, v, congrArg List.head? hq, hin⟩)

end Sys2Proof.Machine
end

section
/-! PROOF. The bit reversal (`41_transform.md` R132), the permutation (R133, first sentence), and the source's
incremental counter (R133): after its rounds below k the exchanged places are those of the pairs with a member below k,
and the counter stands at rev_L(k). -/

namespace Sys2Proof.Machine

/-! ## rev -/

theorem rev_lt (l i : Nat) : rev l i < 2 ^ l := by
  induction l generalizing i with
  | zero => exact Nat.one_pos
  | succ l ih =>
    have hlow := ih (i / 2)
    have htop : i % 2 * 2 ^ l ≤ 1 * 2 ^ l := Nat.mul_le_mul_right _ (by omega)
    rw [rev, pow_succ]
    omega

/-- The bits of rev_L(i), on every bit and every i (R132). -/
theorem testBit_rev (l i b : Nat) : (rev l i).testBit b = (decide (b < l) && i.testBit (l - 1 - b)) := by
  induction l generalizing i b with
  | zero => simp [rev]
  | succ l ih =>
    rw [rev, mul_comm, Nat.testBit_two_pow_mul_add _ (rev_lt l _), ih]
    split
    · next hlow =>
      have hindex : l - b = l - 1 - b + 1 := by omega
      simp [hlow, hlow.trans (Nat.lt_succ_self l), hindex, Nat.testBit_succ]
    · next htop =>
      rcases Nat.lt_or_ge l b with hout | hb
      · obtain ⟨c, hc⟩ : ∃ c, b - l = c + 1 := ⟨b - l - 1, by omega⟩
        have hzero : i % 2 / 2 = 0 := by omega
        simp [hc, Nat.testBit_succ, hzero, show ¬ b < l + 1 by omega]
      · obtain rfl : b = l := by omega
        simp [Nat.testBit_zero]

theorem rev_rev {l i : Nat} (h : i < 2 ^ l) : rev l (rev l i) = i := by
  refine Nat.eq_of_testBit_eq fun b => ?_
  rw [testBit_rev, testBit_rev]
  rcases Nat.lt_or_ge b l with hb | hb
  · have hback : l - 1 - (l - 1 - b) = b := by omega
    simp [hb, hback, show l - 1 - b < l by omega]
  · rw [Nat.testBit_lt_two_pow (h.trans_le (Nat.pow_le_pow_right Nat.two_pos hb))]
    simp [hb.not_gt]

theorem rev_two_mul (l i : Nat) : rev (l + 1) (2 * i) = rev l i := by
  rw [rev, Nat.mul_mod_right, zero_mul, zero_add, Nat.mul_div_cancel_left i Nat.two_pos]

theorem rev_two_mul_add_one (l i : Nat) : rev (l + 1) (2 * i + 1) = rev l i + 2 ^ l := by
  have hmod : (2 * i + 1) % 2 = 1 := by omega
  have hdiv : (2 * i + 1) / 2 = i := by omega
  rw [rev, hmod, hdiv, one_mul, add_comm]

theorem rev_inj {l i j : Nat} (hi : i < 2 ^ l) (hj : j < 2 ^ l) (h : rev l i = rev l j) : i = j := by
  rw [← rev_rev hi, h, rev_rev hj]

theorem rev_zero_right (l : Nat) : rev l 0 = 0 := by
  induction l with
  | zero => rfl
  | succ l ih => rw [← Nat.mul_zero 2, rev_two_mul, ih]

/-- The last index is its own reversal. -/
theorem rev_last (l : Nat) : rev l (2 ^ l - 1) = 2 ^ l - 1 := by
  refine Nat.eq_of_testBit_eq fun b => ?_
  rw [testBit_rev, Nat.testBit_two_pow_sub_one, Nat.testBit_two_pow_sub_one]
  rcases Nat.lt_or_ge b l with hb | hb
  · simp [hb, show l - 1 - b < l by omega]
  · simp [hb.not_gt]

/-! ## The permutation -/

section
variable {α : Type}

/-- One store of the permutation: Y[rev_L(i)] <- X[i] (R134). -/
def permuteStore (l : Nat) (x y : List α) (i : Nat) : List α :=
  match x[i]? with
  | some v => y.set (rev l i) v
  | none => y

theorem permute_eq_foldl (l : Nat) (x : List α) :
    permute l x = (List.range x.length).foldl (permuteStore l x) x := rfl

theorem permuteStore_eq_set {l i : Nat} {x : List α} (y : List α) (h : i < x.length) :
    permuteStore l x y i = y.set (rev l i) x[i] := by
  simp [permuteStore, h]

/-- The stores for the indices below k. -/
theorem foldl_permuteStore {l k : Nat} {x : List α} (hx : x.length = 2 ^ l) (hk : k ≤ 2 ^ l) :
    ((List.range k).foldl (permuteStore l x) x).length = 2 ^ l ∧
      ∀ i, i < k → ((List.range k).foldl (permuteStore l x) x)[rev l i]? = x[i]? := by
  induction k with
  | zero => exact ⟨hx, nofun⟩
  | succ k ih =>
    obtain ⟨hlen, hmoved⟩ := ih (Nat.le_of_succ_le hk)
    rw [List.range_succ, List.foldl_append, List.foldl_cons, List.foldl_nil, permuteStore_eq_set _ (hx ▸ hk)]
    refine ⟨by rw [List.length_set, hlen], fun i hi => ?_⟩
    rcases Nat.lt_succ_iff_lt_or_eq.1 hi with hlt | rfl
    · have hne : rev l k ≠ rev l i := fun h => hlt.ne' (rev_inj hk (hlt.trans hk) h)
      rw [List.getElem?_set_ne hne, hmoved i hlt]
    · rw [List.getElem?_set_self (hlen ▸ rev_lt l i), List.getElem?_eq_getElem]

theorem getElem?_permute_rev {l i : Nat} {x : List α} (hx : x.length = 2 ^ l) (hi : i < 2 ^ l) :
    (permute l x)[rev l i]? = x[i]? := by
  rw [permute_eq_foldl, hx]
  exact (foldl_permuteStore hx le_rfl).2 i hi

theorem getElem?_permute {l i : Nat} {x : List α} (hx : x.length = 2 ^ l) (hi : i < 2 ^ l) :
    (permute l x)[i]? = x[rev l i]? := by
  rw [← getElem?_permute_rev hx (rev_lt l i), rev_rev hi]

/-! ## The incremental counter -/

/-- The while loop and the addition after it advance the reversed counter from rev_L(i) to rev_L(i+1). -/
theorem counterDescend_rev {l fuel i : Nat} (hfuel : l ≤ fuel) (hi : i + 1 < 2 ^ l) :
    (counterDescend fuel (2 ^ l / 2) (rev l i)).2 + (counterDescend fuel (2 ^ l / 2) (rev l i)).1 =
      rev l (i + 1) := by
  induction l generalizing fuel i with
  | zero => omega
  | succ l ih =>
    obtain ⟨fuel, rfl⟩ : ∃ f, fuel = f + 1 := ⟨fuel - 1, by omega⟩
    have hhalf : 2 ^ (l + 1) / 2 = 2 ^ l := by rw [pow_succ, Nat.mul_div_cancel _ Nat.two_pos]
    rw [hhalf, counterDescend]
    rcases Nat.even_or_odd' i with ⟨c, rfl | rfl⟩
    · rw [rev_two_mul, rev_two_mul_add_one, if_neg (rev_lt l c).not_ge]
    · have hnext : 2 * c + 1 + 1 = 2 * (c + 1) := by omega
      rw [rev_two_mul_add_one, if_pos (Nat.le_add_left _ _), Nat.add_sub_cancel, hnext, rev_two_mul]
      exact ih (by omega) (by rw [pow_succ] at hi; omega)

/-- The exchange of a round: the elements at i and j change places where i < j. -/
def swapIfLess (x : List α) (i j : Nat) : List α :=
  if i < j then
    match x[i]?, x[j]? with
    | some a, some b => (x.set i b).set j a
    | _, _ => x
  else x

theorem counterRound_rev {l i : Nat} (x : List α) (hi : i + 1 < 2 ^ l) :
    counterRound (2 ^ l) (x, rev l i) i = (swapIfLess x i (rev l i), rev l (i + 1)) := by
  rw [← counterDescend_rev Nat.lt_two_pow_self.le hi]
  rfl

theorem length_swapIfLess (x : List α) (i j : Nat) : (swapIfLess x i j).length = x.length := by
  unfold swapIfLess
  split
  · split
    · rw [List.length_set, List.length_set]
    · rfl
  · rfl

theorem getElem?_swapIfLess {x : List α} {i j : Nat} (hij : i < j) (hj : j < x.length) (p : Nat) :
    (swapIfLess x i j)[p]? = if p = i then x[j]? else if p = j then x[i]? else x[p]? := by
  have hi : i < x.length := hij.trans hj
  have hswap : swapIfLess x i j = (x.set i x[j]).set j x[i] := by simp [swapIfLess, hij, hi, hj]
  rw [hswap]
  by_cases hpi : p = i
  · simp [hpi, hij.ne', hi, hj]
  · by_cases hpj : p = j
    · simp [hpj, hij.ne', hi, hj]
    · simp [hpi, hpj, Ne.symm hpi, Ne.symm hpj]

/-- The exchanges of the rounds below k are done: the places of the pairs i, rev_L(i) with a member below k have changed
their contents. -/
structure ExchangedBelow (l k : Nat) (x y : List α) : Prop where
  length : y.length = 2 ^ l
  contents : ∀ p, p < 2 ^ l → y[p]? = if p < k ∨ rev l p < k then x[rev l p]? else x[p]?

theorem exchangedBelow_zero {l : Nat} {x : List α} (hx : x.length = 2 ^ l) : ExchangedBelow l 0 x x :=
  ⟨hx, fun p _ => (if_neg (by omega)).symm⟩

/-- Round k exchanges the pair of k where k is its lower member; elsewhere that pair has changed places already, or is
one place. -/
theorem ExchangedBelow.round {l k : Nat} {x y : List α} (h : ExchangedBelow l k x y) (hk : k < 2 ^ l) :
    ExchangedBelow l (k + 1) x (swapIfLess y k (rev l k)) := by
  refine ⟨by rw [length_swapIfLess, h.length], fun p hp => ?_⟩
  have hpartner : rev l p = k ↔ p = rev l k :=
    ⟨fun e => by rw [← e, rev_rev hp], fun e => by rw [e, rev_rev hk]⟩
  by_cases hlow : k < rev l k
  · rw [getElem?_swapIfLess hlow (h.length ▸ rev_lt l k)]
    by_cases hpk : p = k
    · subst hpk
      rw [if_pos rfl, if_pos (.inl p.lt_succ_self), h.contents _ (rev_lt l p), rev_rev hk, if_neg (by omega)]
    · by_cases hpr : p = rev l k
      · rw [if_neg hpk, if_pos hpr, if_pos (.inr (by omega)), hpartner.2 hpr, h.contents k hk, if_neg (by omega)]
      · rw [if_neg hpk, if_neg hpr, h.contents p hp]
        exact if_congr (by omega) rfl rfl
  · rw [swapIfLess, if_neg hlow, h.contents p hp]
    by_cases hpk : p = k
    · subst hpk
      rcases (Nat.not_lt.1 hlow).eq_or_lt with hfixed | hlt
      · rw [hfixed, ite_self, ite_self]
      · exact if_congr (by omega) rfl rfl
    · exact if_congr (by omega) rfl rfl

theorem foldl_counterRound {l k : Nat} {x : List α} (hx : x.length = 2 ^ l) (hk : k < 2 ^ l) :
    ∃ y, (List.range k).foldl (counterRound (2 ^ l)) (x, 0) = (y, rev l k) ∧ ExchangedBelow l k x y := by
  induction k with
  | zero => exact ⟨x, by rw [rev_zero_right]; rfl, exchangedBelow_zero hx⟩
  | succ k ih =>
    have hk' : k < 2 ^ l := by omega
    obtain ⟨y, hfold, hy⟩ := ih hk'
    refine ⟨_, ?_, hy.round hk'⟩
    rw [List.range_succ, List.foldl_append, hfold]
    exact counterRound_rev y hk

end

/-! ## The obligations -/

/-- Settles O21: bit b of the reversal is bit L-1-b, and L-1-(L-1-b) is b. -/
theorem revReadsTheBitsInReverse : Obligations.RevReadsTheBitsInReverse := by
  refine ⟨fun l i b _ hb => ?_, fun l i h => ⟨rev_lt l i, rev_rev h⟩, by decide⟩
  rw [testBit_rev, decide_eq_true hb, Bool.true_and]

/-- Settles O22: `rev` is injective, so no store overwrites an earlier one. -/
theorem permuteMovesToTheReversedIndex : Obligations.PermuteMovesToTheReversedIndex := by
  intro α l x hx
  exact ⟨(length_permute l x).trans hx, fun i hi => getElem?_permute_rev hx hi⟩

/-- Settles O23: after the last round only the last place is untouched, which is its own partner. -/
theorem incrementalCounterComputesThePermutation : Obligations.IncrementalCounterComputesThePermutation := by
  intro α l x _ hx
  have hpos : 0 < 2 ^ l := Nat.two_pow_pos l
  obtain ⟨y, hfold, hy⟩ := foldl_counterRound hx (Nat.sub_lt hpos Nat.one_pos)
  rw [counterPermute, hfold]
  have hlen : (permute l x).length = 2 ^ l := by rw [length_permute, hx]
  refine List.ext_getElem?' fun p hp => ?_
  have hp : p < 2 ^ l := by rw [hy.length, hlen] at hp; omega
  rw [getElem?_permute hx hp, hy.contents p hp]
  by_cases hlast : p = 2 ^ l - 1
  · rw [hlast, rev_last, ite_self]
  · exact if_pos (.inl (by omega))

end Sys2Proof.Machine
end

section
/-! PROOF. The butterflies (`41_transform.md` R135), a stage and the network (R136), and the twiddles (R130). The
butterflies of a stage touch disjoint pairs of places, so they commute. -/

namespace Sys2Proof.Machine

/-! ## One butterfly in place -/

/-- The butterflies p and q touch no common place, hm being the distance of the elements of a pair. -/
structure Apart (hm : Nat) (p q : Nat × Nat) : Prop where
  lower : p.1 ≠ q.1
  lower_upper : p.1 ≠ q.1 + hm
  upper_lower : p.1 + hm ≠ q.1

/-- The butterfly p does not touch place i. -/
def Avoids (hm : Nat) (p : Nat × Nat) (i : Nat) : Prop := p.1 ≠ i ∧ p.1 + hm ≠ i

section
variable {α : Type} {bf : Nat → α → α → α × α} {hm : Nat} {x : List α} {p q : Nat × Nat}

theorem Apart.symm (h : Apart hm p q) : Apart hm q p :=
  ⟨h.lower.symm, h.upper_lower.symm, h.lower_upper.symm⟩

theorem Apart.avoids_lower (h : Apart hm p q) : Avoids hm p q.1 := ⟨h.lower, h.upper_lower⟩

theorem Apart.avoids_upper (h : Apart hm p q) : Avoids hm p (q.1 + hm) :=
  ⟨h.lower_upper, fun e => h.lower (Nat.add_right_cancel e)⟩

theorem butterflyAt_eq_set {a b : α} (ha : x[p.1]? = some a) (hb : x[p.1 + hm]? = some b) :
    butterflyAt bf hm x p = (x.set p.1 (bf p.2 a b).1).set (p.1 + hm) (bf p.2 a b).2 := by
  simp [butterflyAt, ha, hb]

theorem butterflyAt_eq_self (h : x.length ≤ p.1 + hm) : butterflyAt bf hm x p = x := by
  simp [butterflyAt, List.getElem?_eq_none h]

/-- What a butterfly leaves alone. -/
theorem getElem?_butterflyAt_other {i : Nat} (h : Avoids hm p i) : (butterflyAt bf hm x p)[i]? = x[i]? := by
  unfold butterflyAt
  split
  · rw [List.getElem?_set_ne h.2, List.getElem?_set_ne h.1]
  · rfl

/-- Two butterflies apart from each other, both with their places in the list. -/
theorem butterflyAt_comm_of_lt (h : Apart hm p q) (hp : p.1 + hm < x.length) (hq : q.1 + hm < x.length) :
    butterflyAt bf hm (butterflyAt bf hm x p) q = butterflyAt bf hm (butterflyAt bf hm x q) p := by
  have hp0 := List.getElem?_eq_getElem (show p.1 < x.length by omega)
  have hp1 := List.getElem?_eq_getElem hp
  have hq0 := List.getElem?_eq_getElem (show q.1 < x.length by omega)
  have hq1 := List.getElem?_eq_getElem hq
  rw [butterflyAt_eq_set ((getElem?_butterflyAt_other h.avoids_lower).trans hq0)
      ((getElem?_butterflyAt_other h.avoids_upper).trans hq1),
    butterflyAt_eq_set ((getElem?_butterflyAt_other h.symm.avoids_lower).trans hp0)
      ((getElem?_butterflyAt_other h.symm.avoids_upper).trans hp1),
    butterflyAt_eq_set hp0 hp1, butterflyAt_eq_set hq0 hq1, List.set_comm _ _ h.upper_lower,
    List.set_comm _ _ h.lower, List.set_comm _ _ h.avoids_upper.2, List.set_comm _ _ h.lower_upper]

theorem butterflyAt_comm (h : Apart hm p q) :
    butterflyAt bf hm (butterflyAt bf hm x p) q = butterflyAt bf hm (butterflyAt bf hm x q) p := by
  rcases Nat.lt_or_ge (p.1 + hm) x.length with hp | hp
  · rcases Nat.lt_or_ge (q.1 + hm) x.length with hq | hq
    · exact butterflyAt_comm_of_lt h hp hq
    · rw [butterflyAt_eq_self hq, butterflyAt_eq_self (by rwa [length_butterflyAt])]
  · rw [butterflyAt_eq_self (p := p) hp, butterflyAt_eq_self (p := p) (by rwa [length_butterflyAt])]

/-! ## The butterflies of a stage -/

variable {ps : List (Nat × Nat)}

/-- A place none of the butterflies touches. -/
theorem getElem?_foldl_butterflyAt_other {i : Nat} (h : ∀ p ∈ ps, Avoids hm p i) :
    (ps.foldl (butterflyAt bf hm) x)[i]? = x[i]? := by
  induction ps generalizing x with
  | nil => rfl
  | cons p ps ih =>
    obtain ⟨hp, hps⟩ := List.forall_mem_cons.1 h
    rw [List.foldl_cons, ih hps, getElem?_butterflyAt_other hp]

/-- A butterfly finds its pair as the stage found it, and no later one touches its outputs. -/
theorem getElem?_foldl_butterflyAt {a b : α} (hapart : ps.Pairwise (Apart hm)) (hp : p ∈ ps) (hhm : 0 < hm)
    (ha : x[p.1]? = some a) (hb : x[p.1 + hm]? = some b) :
    (ps.foldl (butterflyAt bf hm) x)[p.1]? = some (bf p.2 a b).1 ∧
      (ps.foldl (butterflyAt bf hm) x)[p.1 + hm]? = some (bf p.2 a b).2 := by
  obtain ⟨before, after, rfl⟩ := List.append_of_mem hp
  obtain ⟨-, htail, hbefore⟩ := List.pairwise_append.1 hapart
  have hafter := (List.pairwise_cons.1 htail).1
  have hbefore (q) (hq : q ∈ before) : Apart hm q p := hbefore q hq p List.mem_cons_self
  set y := before.foldl (butterflyAt bf hm) x with hy
  have hlow : y[p.1]? = some a :=
    (getElem?_foldl_butterflyAt_other fun q hq => (hbefore q hq).avoids_lower).trans ha
  have hhigh : y[p.1 + hm]? = some b :=
    (getElem?_foldl_butterflyAt_other fun q hq => (hbefore q hq).avoids_upper).trans hb
  have hlen : p.1 + hm < y.length := (List.getElem?_eq_some_iff.1 hhigh).1
  rw [List.foldl_append, List.foldl_cons, ← hy,
    getElem?_foldl_butterflyAt_other fun q hq => (hafter q hq).symm.avoids_lower,
    getElem?_foldl_butterflyAt_other fun q hq => (hafter q hq).symm.avoids_upper,
    butterflyAt_eq_set hlow hhigh]
  constructor
  · rw [List.getElem?_set_ne (by omega), List.getElem?_set_self (by omega)]
  · rw [List.getElem?_set_self (by rwa [List.length_set])]

theorem foldl_butterflyAt_perm {order : List (Nat × Nat)} (hapart : ps.Pairwise (Apart hm)) (h : order.Perm ps) :
    order.foldl (butterflyAt bf hm) x = ps.foldl (butterflyAt bf hm) x := by
  have : Std.Symm (Apart hm) := ⟨fun _ _ => Apart.symm⟩
  refine h.foldl_eq' (fun p hp q hq y => ?_) x
  rcases eq_or_ne p q with rfl | hne
  · rfl
  · exact butterflyAt_comm (hapart.forall (h.subset hp) (h.subset hq) hne)

end

theorem apart_of_stagePairs (n m : Nat) : (stagePairs n m).Pairwise (Apart (m / 2)) := by
  simp only [stagePairs, List.pairwise_flatMap, List.pairwise_map, List.forall_mem_map, List.mem_range]
  refine ⟨fun block _ => ?_, ?_⟩
  · refine List.pairwise_lt_range.imp_of_mem fun hj hk hlt => ?_
    rw [List.mem_range] at hj hk
    constructor <;> simp only <;> omega
  · refine List.pairwise_lt_range.imp fun hlt j hj k hk => ?_
    have hblock := Nat.mul_le_mul_right m (Nat.succ_le_of_lt hlt)
    rw [Nat.succ_mul] at hblock
    constructor <;> simp only <;> omega

theorem mem_stagePairs {n m block j : Nat} (hblock : block < n / m) (hj : j < m / 2) :
    (block * m + j, j * (n / m)) ∈ stagePairs n m :=
  List.mem_flatMap.2 ⟨block, List.mem_range.2 hblock, List.mem_map.2 ⟨j, List.mem_range.2 hj, rfl⟩⟩

/-- What a stage makes of the pair of a block and an offset. -/
theorem getElem?_stage {α : Type} (bf : Nat → α → α → α × α) {n m block j : Nat} {x : List α} {a b : α}
    (hblock : block < n / m) (hj : j < m / 2) (ha : x[block * m + j]? = some a)
    (hb : x[block * m + j + m / 2]? = some b) :
    (stage bf n x m)[block * m + j]? = some (bf (j * (n / m)) a b).1 ∧
      (stage bf n x m)[block * m + j + m / 2]? = some (bf (j * (n / m)) a b).2 :=
  getElem?_foldl_butterflyAt (apart_of_stagePairs n m) (mem_stagePairs hblock hj) (Nat.zero_lt_of_lt hj) ha hb

/-- The pair of a block and an offset lies in the list. -/
theorem stage_pair_lt {n m block j : Nat} (hblock : block < n / m) (hj : j < m / 2) :
    block * m + j + m / 2 < n := by
  have hend : (block + 1) * m ≤ n / m * m := Nat.mul_le_mul_right m hblock
  have hdiv := Nat.div_mul_le_self n m
  rw [Nat.succ_mul] at hend
  omega

/-! ## The network -/

/-- The contents after the stages m = 2, 4, …, 2^u (R136). -/
def afterStages {α : Type} (bf : Nat → α → α → α × α) (n : Nat) (x : List α) (u : Nat) : List α :=
  ((List.range u).map (fun t => 2 ^ (t + 1))).foldl (stage bf n) x

section
variable {α : Type} (bf : Nat → α → α → α × α) (n : Nat) (x : List α)

theorem afterStages_zero : afterStages bf n x 0 = x := rfl

theorem afterStages_succ (u : Nat) :
    afterStages bf n x (u + 1) = stage bf n (afterStages bf n x u) (2 ^ (u + 1)) := by
  simp only [afterStages, List.range_succ, List.map_append, List.foldl_append, List.map_cons, List.map_nil,
    List.foldl_cons, List.foldl_nil]

theorem network_eq_afterStages (l : Nat) : network bf (2 ^ l) x = afterStages bf (2 ^ l) x l := by
  rw [network, Nat.log2_two_pow, afterStages]

end

/-! ## The twiddles -/

theorem rom_lengths_of_wf {c : Config} (h : c.wf = true) : c.romc.length = c.nMax / 2 ∧ c.roms.length = c.nMax / 2 := by
  simp only [Config.wf, Bool.and_eq_true, decide_eq_true_eq] at h
  obtain ⟨⟨⟨⟨⟨⟨-, hromc⟩, hroms⟩, -⟩, -⟩, -⟩, -⟩ := h
  exact ⟨hromc, hroms⟩

theorem nMax_div_mul_cancel {c : Config} {n : Nat} (hn : validSize c n = true) : c.nMax / n * n = c.nMax := by
  obtain ⟨l, -, hl, rfl⟩ := (validSizesAreThePowersOfTwo c n).1 hn
  exact Nat.div_mul_cancel (pow_dvd_pow 2 hl)

/-- The index of a twiddle is in the ROM (R130). -/
theorem twiddle_index_lt {c : Config} {n k : Nat} (hn : validSize c n = true) (hk : k < n / 2) :
    k * (c.nMax / n) < c.nMax / 2 := by
  have hcancel := nMax_div_mul_cancel hn
  have hdouble : 2 * (k + 1) * (c.nMax / n) ≤ n * (c.nMax / n) := Nat.mul_le_mul_right _ (by omega)
  have hstride : 0 < c.nMax / n := Nat.div_pos (validSize_le hn) (Nat.pos_of_ne_zero (ne_zero_of_validSize hn))
  have hsplit : 2 * (k + 1) * (c.nMax / n) = 2 * (k * (c.nMax / n)) + 2 * (c.nMax / n) := by ring
  rw [mul_comm] at hcancel
  omega

/-! ## The obligations -/

/-- Settles O24: on operands that hold values `lift2` is the operation itself. -/
theorem butterflyRoundsEachOperationOnce : Obligations.ButterflyRoundsEachOperationOnce := by
  intro ar ai br bi c s
  rfl

/-- Settles O26: a butterfly finds its pair as the stage found it (`getElem?_stage`), and the network is what the last
stage leaves. -/
theorem stageAppliesEachButterflyToItsPair : Obligations.StageAppliesEachButterflyToItsPair := by
  refine ⟨fun α bf l u x _ _ hx block j hblock hj => ?_, fun α bf l x => ?_⟩
  · have hlt := hx ▸ stage_pair_lt hblock hj
    have ha := List.getElem?_eq_getElem (show block * 2 ^ u + j < x.length by omega)
    have hb := List.getElem?_eq_getElem hlt
    exact ⟨_, _, ha, hb, getElem?_stage bf hblock hj ha hb⟩
  · exact ⟨afterStages bf (2 ^ l) x, afterStages_zero bf _ x, fun u _ => afterStages_succ bf _ x u,
      network_eq_afterStages bf x l⟩

/-- Settles O27: butterflies that touch disjoint pairs commute. -/
theorem stageResultIsIndependentOfOrder : Obligations.StageResultIsIndependentOfOrder := by
  intro α bf l u x order _ _ horder
  exact foldl_butterflyAt_perm (apart_of_stagePairs _ _) horder

/-- Settles O29: N and N_MAX are powers of two, and both ROM tables have N_MAX/2 entries. -/
theorem twiddleViewIsStrided : Obligations.TwiddleViewIsStrided := by
  intro c n k hwf hn hk
  have hindex := twiddle_index_lt hn hk
  obtain ⟨hromc, hroms⟩ := rom_lengths_of_wf hwf
  have hc := List.getElem?_eq_getElem (hromc ▸ hindex)
  have hs := List.getElem?_eq_getElem (hroms ▸ hindex)
  exact ⟨nMax_div_mul_cancel hn, hindex, _, _, hc, hs, by rw [twiddle, hc, hs]; rfl⟩

end Sys2Proof.Machine
end

section
/-! PROOF. The permutation and the network over a commutative ring with a root of unity (`41_transform.md` R139): after
the stages up to m = 2^u the block b of the contents holds the transform of size 2^u of every 2^(L-u)-th element of the
input, from element rev_(L-u)(b) on. -/

namespace Sys2Proof.Machine

section
variable {R : Type} [CommRing R] (ω : R) (x : List R)

/-- The exact butterfly, with the powers of ω as twiddles. -/
def exactButterfly (k : Nat) (a b : R) : R × R := (a + b * ω ^ k, a - b * ω ^ k)

/-- Bin f of the transform of size 2^u of every 2^k-th element of the input, from element rev_k(b) on. -/
def strideTransform (u k b f : Nat) : R :=
  ∑ n ∈ Finset.range (2 ^ u), x.getD (rev k b + n * 2 ^ k) 0 * ω ^ (f * n * 2 ^ k)

theorem sum_range_two_mul (g : Nat → R) (n : Nat) :
    ∑ i ∈ Finset.range (2 * n), g i = ∑ i ∈ Finset.range n, g (2 * i) + ∑ i ∈ Finset.range n, g (2 * i + 1) := by
  induction n with
  | zero => simp
  | succ n ih =>
    rw [Nat.mul_succ, Finset.sum_range_succ, Finset.sum_range_succ, ih, Finset.sum_range_succ, Finset.sum_range_succ]
    ring

theorem strideTransform_zero (k b f : Nat) : strideTransform ω x 0 k b f = x.getD (rev k b) 0 := by
  simp [strideTransform]

/-- The elements of even and of odd number are the inputs of two blocks of half the size. -/
theorem strideTransform_succ (u k b f : Nat) :
    strideTransform ω x (u + 1) k b f =
      strideTransform ω x u (k + 1) (2 * b) f + strideTransform ω x u (k + 1) (2 * b + 1) f * ω ^ (f * 2 ^ k) := by
  simp only [strideTransform, pow_succ' 2, sum_range_two_mul, Finset.sum_mul]
  congr 1 <;> refine Finset.sum_congr rfl fun n _ => ?_
  · rw [rev_two_mul]
    ring_nf
  · rw [rev_two_mul_add_one]
    have hindex : rev k b + 2 ^ k + n * (2 * 2 ^ k) = rev k b + (2 * n + 1) * 2 ^ k := by ring
    rw [hindex]
    ring

variable {ω}

/-- The bins repeat after 2^u. -/
theorem strideTransform_add_size {u k : Nat} (hω : ω ^ 2 ^ (k + u) = 1) (b f : Nat) :
    strideTransform ω x u k b (f + 2 ^ u) = strideTransform ω x u k b f := by
  refine Finset.sum_congr rfl fun n _ => ?_
  have hexp : (f + 2 ^ u) * n * 2 ^ k = f * n * 2 ^ k + 2 ^ (k + u) * n := by rw [pow_add]; ring
  rw [hexp, pow_add ω, pow_mul ω (2 ^ (k + u)), hω, one_pow, mul_one]

/-- One butterfly makes two bins of a block from the bins of two blocks of half the size. -/
theorem exactButterfly_strideTransform {u k : Nat} (hω : ω ^ 2 ^ (k + u) = -1) (b f : Nat) :
    exactButterfly ω (f * 2 ^ k) (strideTransform ω x u (k + 1) (2 * b) f)
        (strideTransform ω x u (k + 1) (2 * b + 1) f) =
      (strideTransform ω x (u + 1) k b f, strideTransform ω x (u + 1) k b (f + 2 ^ u)) := by
  have hone : ω ^ 2 ^ (k + 1 + u) = 1 := by
    have hexp : 2 ^ (k + 1 + u) = 2 ^ (k + u) * 2 := by rw [add_right_comm, pow_succ]
    rw [hexp, pow_mul, hω, neg_one_sq]
  have hsign : ω ^ ((f + 2 ^ u) * 2 ^ k) = -ω ^ (f * 2 ^ k) := by
    have hexp : (f + 2 ^ u) * 2 ^ k = f * 2 ^ k + 2 ^ (k + u) := by rw [pow_add]; ring
    rw [hexp, pow_add, hω, mul_neg_one]
  rw [strideTransform_succ, strideTransform_succ, strideTransform_add_size x hone, strideTransform_add_size x hone,
    hsign, mul_neg, ← sub_eq_add_neg, exactButterfly]

/-- A stage makes the transform in a block from the transforms in the block's two halves. -/
theorem getElem?_stage_strideTransform {u k b f : Nat} {y : List R} (hω : ω ^ 2 ^ (k + u) = -1) (hb : b < 2 ^ k)
    (hf : f < 2 ^ (u + 1))
    (hlower : ∀ j, j < 2 ^ u → y[2 * b * 2 ^ u + j]? = some (strideTransform ω x u (k + 1) (2 * b) j))
    (hupper : ∀ j, j < 2 ^ u → y[(2 * b + 1) * 2 ^ u + j]? = some (strideTransform ω x u (k + 1) (2 * b + 1) j)) :
    (stage (exactButterfly ω) (2 ^ (k + (u + 1))) y (2 ^ (u + 1)))[b * 2 ^ (u + 1) + f]? =
      some (strideTransform ω x (u + 1) k b f) := by
  have hhalf : 2 ^ (u + 1) / 2 = 2 ^ u := by rw [pow_succ, Nat.mul_div_cancel _ Nat.two_pos]
  have hblocks : 2 ^ (k + (u + 1)) / 2 ^ (u + 1) = 2 ^ k := by
    rw [pow_add, Nat.mul_div_cancel _ (Nat.two_pow_pos _)]
  have hpair (j : Nat) (hj : j < 2 ^ u) :
      (stage (exactButterfly ω) (2 ^ (k + (u + 1))) y (2 ^ (u + 1)))[b * 2 ^ (u + 1) + j]? =
          some (strideTransform ω x (u + 1) k b j) ∧
        (stage (exactButterfly ω) (2 ^ (k + (u + 1))) y (2 ^ (u + 1)))[b * 2 ^ (u + 1) + j + 2 ^ u]? =
          some (strideTransform ω x (u + 1) k b (j + 2 ^ u)) := by
    have hlow : b * 2 ^ (u + 1) + j = 2 * b * 2 ^ u + j := by ring
    have hhigh : b * 2 ^ (u + 1) + j + 2 ^ (u + 1) / 2 = (2 * b + 1) * 2 ^ u + j := by rw [hhalf]; ring
    have hstage := getElem?_stage (exactButterfly ω) (hblocks.symm ▸ hb) (hhalf.symm ▸ hj)
      (hlow ▸ hlower j hj) (hhigh ▸ hupper j hj)
    rwa [hblocks, hhalf, exactButterfly_strideTransform x hω] at hstage
  rcases Nat.lt_or_ge f (2 ^ u) with hfirst | hsecond
  · exact (hpair f hfirst).1
  · obtain ⟨j, rfl⟩ := Nat.exists_eq_add_of_le' hsecond
    rw [← Nat.add_assoc _ j]
    exact (hpair j (by rw [pow_succ] at hf; omega)).2

/-- The contents after the stages up to m = 2^u. -/
theorem getElem?_afterStages {l u k b f : Nat} (hω : ω ^ 2 ^ (l - 1) = -1) (hx : x.length = 2 ^ l) (hl : k + u = l)
    (hb : b < 2 ^ k) (hf : f < 2 ^ u) :
    (afterStages (exactButterfly ω) (2 ^ l) (permute l x) u)[b * 2 ^ u + f]? =
      some (strideTransform ω x u k b f) := by
  induction u generalizing k b f with
  | zero =>
    obtain rfl : k = l := hl
    obtain rfl : f = 0 := by omega
    have hget := List.getElem?_eq_getElem (hx ▸ rev_lt k b)
    rw [afterStages_zero, strideTransform_zero, pow_zero, mul_one, add_zero, getElem?_permute hx hb,
      List.getD_eq_getElem?_getD, hget, Option.getD_some]
  | succ u ih =>
    have hhalf {c j : Nat} (hc : c < 2 ^ (k + 1)) (hj : j < 2 ^ u) := ih (k := k + 1) (by omega) hc hj
    subst hl
    rw [afterStages_succ]
    exact getElem?_stage_strideTransform x hω hb hf (fun j hj => hhalf (by omega) hj)
      (fun j hj => hhalf (by omega) hj)

/-- The permutation and the network compute the transform of the whole input. -/
theorem getElem?_network_permute {l f : Nat} (hω : ω ^ 2 ^ (l - 1) = -1) (hx : x.length = 2 ^ l)
    (hf : f < 2 ^ l) :
    (network (exactButterfly ω) (2 ^ l) (permute l x))[f]? =
      some (∑ n ∈ Finset.range (2 ^ l), x.getD n 0 * ω ^ (f * n)) := by
  have hbin := getElem?_afterStages x hω hx (zero_add l) (b := 0) Nat.one_pos hf
  rw [zero_mul, zero_add] at hbin
  rw [network_eq_afterStages, hbin, strideTransform]
  simp only [rev, pow_zero, mul_one, zero_add]

end

/-! ## The complex numbers -/

/-- The twiddle of size n and index 1 over the complex numbers (R130). -/
noncomputable def unitTwiddle (n : Nat) : ℂ := Complex.exp (-2 * Real.pi * Complex.I / n)

theorem unitTwiddle_pow (n k : Nat) :
    unitTwiddle n ^ k = Complex.exp (-2 * Real.pi * Complex.I * k / n) := by
  rw [unitTwiddle, ← Complex.exp_nat_mul]
  congr 1
  ring

theorem unitTwiddle_pow_half {l : Nat} (hl : 1 ≤ l) : unitTwiddle (2 ^ l) ^ 2 ^ (l - 1) = -1 := by
  obtain ⟨k, rfl⟩ := Nat.exists_eq_add_of_le' hl
  rw [unitTwiddle_pow, Nat.add_sub_cancel]
  have harg : -2 * Real.pi * Complex.I * (2 ^ k : ℕ) / (2 ^ (k + 1) : ℕ) = -(Real.pi * Complex.I) := by
    push_cast
    field_simp
    ring
  rw [harg, Complex.exp_neg, Complex.exp_pi_mul_I]
  norm_num

/-- The butterfly of R139 is the exact one. -/
theorem exactButterfly_unitTwiddle (n : Nat) :
    exactButterfly (unitTwiddle n) = fun (k : ℕ) (a b : ℂ) =>
      (a + b * Complex.exp (-2 * Real.pi * Complex.I * k / n),
        a - b * Complex.exp (-2 * Real.pi * Complex.I * k / n)) := by
  funext k a b
  rw [exactButterfly, unitTwiddle_pow]

/-- Settles O28: the exact twiddles are the powers of a root of unity whose half power is -1. -/
theorem exactNetworkComputesTheDft : Obligations.ExactNetworkComputesTheDft := by
  intro l x hl hx f hf
  have hbin := getElem?_network_permute x (unitTwiddle_pow_half hl) hx hf
  simp only [exactButterfly_unitTwiddle, unitTwiddle_pow, Nat.cast_mul, ← mul_assoc] at hbin
  exact hbin

end Sys2Proof.Machine
end

section
/-! PROOF. The commands of the transform (`41_transform.md` R134, R137, R138): what BITREV and BFLY leave in REAL and
IMAG, and that they and FFT change no other byte. -/

namespace Sys2Proof.Machine

/-- What the completion of any command leaves alone (`40_control.md` R111). -/
theorem sameButData_complete (i : Instr) (s : State) : SameButData s (effectOf i s).complete := by
  obtain ⟨hcfg, hstatus, hctrl, -, hrst, hrequests, hresponses, hschedule, hturn, hdelay⟩ := effectOf_frame i s
  constructor <;> simp only [State.complete, *]

theorem completed_complete (s : State) : Completed s.complete := ⟨rfl, rfl, rfl⟩

theorem complete_complete (s : State) : s.complete.complete = s.complete := rfl

theorem effectOf_fft (n : Nat) (s : State) :
    effectOf (.fft n) s = effectOf (.bfly n) (effectOf (.bitrev n) s) := rfl

/-- BFLY reads none of the fields that completion writes. -/
theorem effectOf_bfly_complete (n : Nat) (s : State) :
    effectOf (.bfly n) s.complete = (effectOf (.bfly n) s).complete := rfl

/-! ## What the commands leave in memory -/

section
variable {n : Nat} {s : State}

theorem validSize_le_of_log2nMax_le (hlog : s.cfg.log2nMax ≤ 17) (hn : validSize s.cfg n = true) : n ≤ 131072 :=
  (validSize_le hn).trans (nMax_le hlog)

/-- REAL and IMAG read, by index, as the two lists that were stored there. -/
theorem readWord_storeComplex {re im : List (Option Word)} {i : Nat} {v w : Option Word} (hn : re.length ≤ 131072)
    (hre : re[i]? = some v) (him : im[i]? = some w) :
    Memory.readWord (s.storeComplex re im).mem (realBase + 8 * i) = v ∧
      Memory.readWord (s.storeComplex re im).mem (imagBase + 8 * i) = w := by
  obtain ⟨hi, rfl⟩ := List.getElem?_eq_some_iff.1 hre
  obtain ⟨hi', rfl⟩ := List.getElem?_eq_some_iff.1 him
  exact ⟨readWord_storeComplex_real hi hn, readWord_storeComplex_imag hi'⟩

theorem bflyEffect_mem (n : Nat) (s : State) :
    (bflyEffect n s).mem = (s.storeComplex (patterns s.draws ((s.transformed n).map Prod.fst))
      (patterns (s.draws + n) ((s.transformed n).map Prod.snd))).mem := rfl

theorem readByte_bitrevEffect_outside (n : Nat) (s : State) {a : Nat}
    (hreal : ¬ inWindow realBase n a) (himag : ¬ inWindow imagBase n a) :
    Memory.readByte (bitrevEffect n s).mem a = Memory.readByte s.mem a :=
  readByte_storeComplex_outside (by simp) (by simp) hreal himag

theorem readByte_bflyEffect_outside (n : Nat) (s : State) {a : Nat}
    (hreal : ¬ inWindow realBase n a) (himag : ¬ inWindow imagBase n a) :
    Memory.readByte (bflyEffect n s).mem a = Memory.readByte s.mem a := by
  rw [bflyEffect_mem]
  exact readByte_storeComplex_outside (by simp) (by simp) hreal himag

theorem readByte_fftEffect_outside (n : Nat) (s : State) {a : Nat}
    (hreal : ¬ inWindow realBase n a) (himag : ¬ inWindow imagBase n a) :
    Memory.readByte (fftEffect n s).mem a = Memory.readByte s.mem a := by
  rw [fftEffect, readByte_bflyEffect_outside n _ hreal himag, readByte_bitrevEffect_outside n s hreal himag]

/-- BITREV moves the elements of both buffers to the reversed index (R134). -/
theorem readWord_bitrevEffect {l i : Nat} (hl : 2 ^ l ≤ 131072) (hi : i < 2 ^ l) :
    Memory.readWord (bitrevEffect (2 ^ l) s).mem (realBase + 8 * rev l i) =
        Memory.readWord s.mem (realBase + 8 * i) ∧
      Memory.readWord (bitrevEffect (2 ^ l) s).mem (imagBase + 8 * rev l i) =
        Memory.readWord s.mem (imagBase + 8 * i) := by
  have hmoved (base : Nat) : (permute l (Memory.readWords s.mem base (2 ^ l)))[rev l i]? =
      some (Memory.readWord s.mem (base + 8 * i)) :=
    (getElem?_permute_rev (Memory.length_readWords _ _ _) hi).trans (Memory.getElem?_readWords _ _ hi)
  rw [bitrevEffect, Nat.log2_two_pow]
  refine readWord_storeComplex ?_ (hmoved realBase) (hmoved imagBase)
  rwa [length_permute, Memory.length_readWords]

/-- The samples as the statements write them. -/
theorem samples_eq_map (n : Nat) (s : State) :
    s.samples n = (List.range n).map (fun j => ((Memory.readWord s.mem (realBase + 8 * j)).map f64,
      (Memory.readWord s.mem (imagBase + 8 * j)).map f64)) := by
  refine List.ext_getElem? fun i => ?_
  rcases Nat.lt_or_ge i n with hi | hi
  · rw [getElem?_samples s hi, List.getElem?_map, List.getElem?_range hi, Option.map_some]
  · rw [List.getElem?_eq_none (by rwa [length_samples]), List.getElem?_eq_none (by simpa using hi)]

/-- BFLY stores the patterns of the network's results, each with a draw of its own (R137, log 6). -/
theorem readWord_bflyEffect {i : Nat} {re im : Element} (hn : n ≤ 131072)
    (h : (s.transformed n)[i]? = some (re, im)) :
    Memory.readWord (bflyEffect n s).mem (realBase + 8 * i) =
        re.map (bits64 (quietNan (Config.nanDraw (s.draws + i)))) ∧
      Memory.readWord (bflyEffect n s).mem (imagBase + 8 * i) =
        im.map (bits64 (quietNan (Config.nanDraw (s.draws + n + i)))) := by
  rw [bflyEffect_mem]
  refine readWord_storeComplex ?_ ?_ ?_
  · rwa [length_patterns, List.length_map, length_transformed]
  · rw [getElem?_patterns, List.getElem?_map, h, Option.map_some, Option.map_some]
  · rw [getElem?_patterns, List.getElem?_map, h, Option.map_some, Option.map_some]

end

/-! ## The obligations -/

/-- Settles O14: each store of the permutation moves one element of either buffer, with its value or without. -/
theorem bitrevMovesElementsToReversedIndices : Obligations.BitrevMovesElementsToReversedIndices := by
  intro n s hturn hlog hn
  refine ⟨_, exec_engine (.bitrev n) hturn, completed_complete _, sameButData_complete _ s, rfl, rfl,
    fun i hi => ?_, fun a hreal himag => readByte_bitrevEffect_outside n s hreal himag⟩
  have hspan := validSize_le_of_log2nMax_le hlog hn
  obtain ⟨l, -, -, rfl⟩ := (validSizesAreThePowersOfTwo s.cfg n).1 hn
  rw [Nat.log2_two_pow]
  exact readWord_bitrevEffect hspan hi

/-- Settles O15: BFLY stores the patterns of the network's results, and its samples are those the statement lists. -/
theorem bflyStoresTheNetworksResults : Obligations.BflyStoresTheNetworksResults := by
  intro n s hturn hlog hn
  refine ⟨_, exec_engine (.bfly n) hturn, completed_complete _, sameButData_complete _ s, rfl, rfl,
    fun i hi => ?_, fun a hreal himag => readByte_bflyEffect_outside n s hreal himag⟩
  obtain ⟨⟨re, im⟩, hget⟩ : ∃ v, (s.transformed n)[i]? = some v :=
    ⟨_, List.getElem?_eq_getElem (by rwa [length_transformed])⟩
  have hread := readWord_bflyEffect (validSize_le_of_log2nMax_le hlog hn) hget
  rw [← samples_eq_map]
  exact ⟨re, im, hget, hread⟩

/-- Settles O16: the flags that BITREV's completion writes are those that BFLY's writes again. -/
theorem fftIsBitrevThenBfly : Obligations.FftIsBitrevThenBfly := by
  intro n s hturn
  have hturn' := (sameButData_complete (.bitrev n) s).turn.trans hturn
  refine ⟨_, _, exec_engine (.bitrev n) hturn, exec_engine (.bfly n) hturn', ?_⟩
  rw [exec_engine (.fft n) hturn, effectOf_bfly_complete, complete_complete, effectOf_fft]

/-- Settles O17: FFT's effect is BFLY's after BITREV's, and neither changes a byte outside the two windows. -/
theorem fftFrame : Obligations.FftFrame := by
  intro n s hturn _ _
  refine ⟨_, exec_engine (.fft n) hturn, completed_complete _, sameButData_complete _ s, fftEffect_size n s,
    fftEffect_draws n s, fun a hreal himag => ?_⟩
  rw [State.complete_mem, effectOf, readByte_fftEffect_outside n s hreal himag]

end Sys2Proof.Machine
end

section
/-! PROOF. The sign of a magnitude (`42_spectrum.md` R164): a square has the sign bit 0, and the sum, the root and the
quotient of such values keep it 0, or are NaN. -/

namespace Sys2Proof.Machine

/-- NaN, or a value whose sign bit is 0. -/
inductive SignClear : Binary64 → Prop
  | nan : SignClear .nan
  | inf : SignClear (.inf false)
  | fin (u : Nat) : SignClear (.fin false u)

theorem signClear_iff {x : Binary64} : SignClear x ↔ x = .nan ∨ x = .inf false ∨ ∃ u, x = .fin false u := by
  constructor
  · rintro (_ | _ | u)
    · exact .inl rfl
    · exact .inr (.inl rfl)
    · exact .inr (.inr ⟨u, rfl⟩)
  · rintro (rfl | rfl | ⟨u, rfl⟩)
    · exact .nan
    · exact .inf
    · exact .fin u

theorem signClear_rounded (p q : Nat) : SignClear (rounded false p q) := by
  rw [rounded]
  split
  · exact .fin _
  · exact .inf

theorem signClear_ofNat64 (n : Nat) : SignClear (ofNat64 n) := signClear_rounded n 1

/-- The sign of a square is the exclusive or of a sign with itself. -/
theorem signClear_fmul_self (x : Binary64) : SignClear (fmul x x) := by
  cases x with
  | nan => exact .nan
  | inf s =>
    rw [fmul, Bool.xor_self]
    exact .inf
  | fin s u =>
    rw [fmul, Bool.xor_self]
    exact signClear_rounded _ _

section
variable {x y : Binary64} (hx : SignClear x) (hy : SignClear y)
include hx

include hy in
theorem signClear_fadd : SignClear (fadd x y) := by
  cases hx with
  | nan => exact .nan
  | inf => cases hy with
    | nan => exact .nan
    | inf => exact .inf
    | fin v => exact .inf
  | fin u => cases hy with
    | nan => exact .nan
    | inf => exact .inf
    | fin v =>
      have hsum : ¬ signedUnits false u + signedUnits false v < 0 :=
        (Int.add_nonneg (Int.natCast_nonneg u) (Int.natCast_nonneg v)).not_gt
      simp only [fadd, hsum, decide_false]
      split
      · exact .fin 0
      · exact signClear_rounded _ _

theorem signClear_fsqrt : SignClear (fsqrt x) := by
  cases hx with
  | nan => exact .nan
  | inf => exact .inf
  | fin u =>
    rcases Nat.eq_zero_or_pos u with rfl | hu
    · exact .fin 0
    · rw [fsqrt_fin hu]
      exact signClear_rounded _ _

include hy in
theorem signClear_fdiv : SignClear (fdiv x y) := by
  cases hx with
  | nan => exact .nan
  | inf => cases hy with
    | nan => exact .nan
    | inf => exact .nan
    | fin v => exact .inf
  | fin u => cases hy with
    | nan => exact .nan
    | inf => exact .fin 0
    | fin v =>
      simp only [fdiv, Bool.xor_self]
      split_ifs
      · exact .nan
      · exact .inf
      · exact signClear_rounded _ _

end

/-- Settles O36: the five operations of a magnitude, one after another. -/
theorem magnitudeIsNeverNegative : Obligations.MagnitudeIsNeverNegative := by
  intro n i re im
  have hroot : SignClear (fsqrt (fadd (fmul re re) (fmul im im))) :=
    signClear_fsqrt (signClear_fadd (signClear_fmul_self re) (signClear_fmul_self im))
  rw [← signClear_iff, magnitude]
  split
  · exact signClear_fdiv hroot (signClear_ofNat64 n)
  · exact signClear_fdiv hroot (signClear_ofNat64 (n / 2))

end Sys2Proof.Machine
end

section
/-! PROOF. Writes of neighbouring elements of the buffer memory: two writes in a row are one, so elements stored one
after another are one write. -/

namespace Sys2Proof.Machine.Memory

theorem readWord_writeWords_of_getElem? {off i : Nat} {ws : List (Option Word)} {w : Option Word} (m : Memory)
    (h : ws[i]? = some w) : readWord (writeWords m off ws) (off + 8 * i) = w := by
  obtain ⟨hi, rfl⟩ := List.getElem?_eq_some_iff.1 h
  exact readWord_writeWords_inside m hi

theorem cellsOfWords_append (off : Nat) (ws ws' : List (Option Word)) :
    cellsOfWords off (ws ++ ws') = cellsOfWords off ws ++ cellsOfWords (off + 8 * ws.length) ws' := by
  induction ws generalizing off with
  | nil => rfl
  | cons w ws ih =>
    have hoff : off + 8 + 8 * ws.length = off + 8 * (ws.length + 1) := by omega
    simp only [List.cons_append, cellsOfWords, ih, hoff, List.length_cons, List.append_assoc]

/-- All cells of a write lie below its end. -/
theorem filter_cellsOfWords_below (off : Nat) (ws : List (Option Word)) :
    (cellsOfWords off ws).filter (fun c => decide (c.1 < off + 8 * ws.length)) = cellsOfWords off ws :=
  List.filter_eq_self.2 fun _ hc => decide_eq_true (mem_cellsOfWords hc).2

theorem filter_cellsOfWords_above {off b : Nat} {ws : List (Option Word)} (h : off + 8 * ws.length ≤ b) :
    (cellsOfWords off ws).filter (fun c => decide (b ≤ c.1)) = [] :=
  List.filter_eq_nil_iff.2 fun _ hc hb =>
    absurd ((mem_cellsOfWords hc).2.trans_le h) (of_decide_eq_true hb).not_gt

/-- Two writes, the second where the first ends, are one write. -/
theorem writeWords_writeWords (m : Memory) (off : Nat) (ws ws' : List (Option Word)) :
    writeWords (writeWords m off ws) (off + 8 * ws.length) ws' = writeWords m off (ws ++ ws') := by
  have hend : off + 8 * ws.length + 8 * ws'.length = off + 8 * (ws ++ ws').length := by
    rw [List.length_append]
    omega
  have hlen : off + 8 * ws.length ≤ off + 8 * (ws ++ ws').length := by omega
  rw [writeWords, hend, writeWords, writeWords, cellsOfWords_append]
  simp only [List.filter_append, List.filter_filter, filter_cellsOfWords_below, filter_cellsOfWords_above hlen,
    ← Bool.decide_and]
  generalize off + 8 * (ws ++ ws').length = stop at hlen
  -- Each old cell has passed two filters: one of them decides, or they exclude each other.
  have hbelow (k : Nat) : (k < off + 8 * ws.length ∧ k < off) ↔ k < off := by omega
  have hmiddle (k : Nat) : ¬ (k < off + 8 * ws.length ∧ off + 8 * ws.length ≤ k) := by omega
  have houtside (k : Nat) : ¬ (stop ≤ k ∧ k < off) := by omega
  have habove (k : Nat) : (stop ≤ k ∧ off + 8 * ws.length ≤ k) ↔ stop ≤ k := by omega
  simp only [hbelow, hmiddle, houtside, habove, decide_false, List.filter_false, List.append_nil, List.nil_append,
    List.append_assoc]

/-- Equal elements stored one after another are one write. -/
theorem foldl_writeWord_eq_writeWords (m : Memory) (off n : Nat) (w : Word) :
    (List.range (n + 1)).foldl (fun m i => writeWord m (off + 8 * i) w) m =
      writeWords m off (List.replicate (n + 1) (some w)) := by
  induction n with
  | zero => rfl
  | succ n ih =>
    have hnext := writeWords_writeWords m off (List.replicate (n + 1) (some w)) [some w]
    rw [List.length_replicate, ← List.replicate_succ'] at hnext
    rw [List.range_succ, List.foldl_append, ih]
    exact hnext

end Sys2Proof.Machine.Memory
end

section
/-! PROOF. The commands of the spectrum (`42_spectrum.md` R161, R162): what MAG leaves in MAGB, and ANALYZE as its
four steps. -/

namespace Sys2Proof.Machine

/-! ## What the commands leave in memory -/

/-- No command reads a field that completion writes. -/
theorem effectOf_complete (i : Instr) (s : State) : effectOf i s.complete = (effectOf i s).complete := by
  cases i <;> rfl

/-- A command that runs right after a completion: it writes the same flags again. -/
theorem exec_complete {s : State} (i : Instr) (h : s.turn = .engine) :
    exec i s.complete = .next (effectOf i s).complete := by
  rw [exec_engine (s := s.complete) i h, effectOf_complete, complete_complete]

theorem zeroImag_complete (n : Nat) (s : State) : zeroImag n s.complete = (zeroImag n s).complete := rfl

theorem effectOf_analyze (n : Nat) (s : State) :
    effectOf (.analyze n) s = effectOf (.mag n) (effectOf (.fft n) (zeroImag n (effectOf (.config n) s))) := rfl

/-- The zeroing as R162 writes it, one element after another. -/
theorem zeroImag_eq_foldl {n : Nat} (hn : n ≠ 0) (s : State) :
    zeroImag n s = { s with
      mem := (List.range n).foldl (fun m i => Memory.writeWord m (imagBase + 8 * i) 0x0000000000000000#64) s.mem } := by
  obtain ⟨k, rfl⟩ := Nat.exists_eq_succ_of_ne_zero hn
  rw [zeroImag, Memory.foldl_writeWord_eq_writeWords]

theorem magEffect_mem (n : Nat) (s : State) :
    (magEffect n s).mem =
      Memory.writeWords s.mem magBase (patterns s.draws (magnitudes n 0 (s.samples (n / 2)))) := rfl

/-- MAG stores the pattern of each bin's magnitude, with a draw of its own (R161, log 6). -/
theorem readWord_magEffect {n i : Nat} (s : State) (hi : i < n / 2) :
    Memory.readWord (magEffect n s).mem (magBase + 8 * i) =
      (lift2 (magnitude n i) ((Memory.readWord s.mem (realBase + 8 * i)).map f64)
        ((Memory.readWord s.mem (imagBase + 8 * i)).map f64)).map
        (bits64 (quietNan (Config.nanDraw (s.draws + i)))) := by
  rw [magEffect_mem]
  refine Memory.readWord_writeWords_of_getElem? _ ?_
  rw [getElem?_patterns, getElem?_magnitudes, getElem?_samples s hi, Nat.zero_add, Option.map_some, Option.map_some]

theorem readByte_magEffect_outside (n : Nat) (s : State) {a : Nat} (hmag : ¬ inWindow magBase (n / 2) a) :
    Memory.readByte (magEffect n s).mem a = Memory.readByte s.mem a := by
  rw [magEffect_mem]
  exact Memory.readByte_writeWords_outside _ (by simpa using hmag)

theorem readByte_zeroImag_outside (n : Nat) (s : State) {a : Nat} (himag : ¬ inWindow imagBase n a) :
    Memory.readByte (zeroImag n s).mem a = Memory.readByte s.mem a :=
  Memory.readByte_writeWords_outside _ (by simpa using himag)

theorem readByte_analyzeEffect_outside (n : Nat) (s : State) {a : Nat} (hreal : ¬ inWindow realBase n a)
    (himag : ¬ inWindow imagBase n a) (hmag : ¬ inWindow magBase (n / 2) a) :
    Memory.readByte (analyzeEffect n s).mem a = Memory.readByte s.mem a := by
  rw [analyzeEffect, readByte_magEffect_outside n _ hmag, readByte_fftEffect_outside n _ hreal himag,
    readByte_zeroImag_outside n _ himag, configEffect_mem]

theorem lift2_eq_none {f : Binary64 → Binary64 → Binary64} {x y : Element} (h : x = none ∨ y = none) :
    lift2 f x y = none := by
  rcases h with rfl | rfl
  · rfl
  · cases x <;> rfl

/-! ## The obligations -/

/-- Settles O18: bin i of MAGB is written with the magnitude of sample i, which is none where a part of it is. -/
theorem magStoresTheMagnitudes : Obligations.MagStoresTheMagnitudes := by
  intro n s hturn _ _
  refine ⟨_, exec_engine (.mag n) hturn, completed_complete _, sameButData_complete _ s, magEffect_size n s,
    magEffect_draws n s, fun i hi => ?_, fun a hmag => readByte_magEffect_outside n s hmag⟩
  have hread := readWord_magEffect s hi
  constructor
  · intro re im hre him
    rw [hre, him] at hread
    exact hread
  · intro hnone
    rw [lift2_eq_none (hnone.imp Option.map_eq_none_iff.2 Option.map_eq_none_iff.2)] at hread
    exact hread

/-- Settles O19: the steps are those of ANALYZE's effect, and none of them reads the flags that the one before it wrote
at its completion. -/
theorem analyzeIsConfigZeroFftMag : Obligations.AnalyzeIsConfigZeroFftMag := by
  intro n s hturn _ hn
  have hzero := zeroImag_eq_foldl (ne_zero_of_validSize hn) (effectOf (.config n) s).complete
  refine ⟨_, (effectOf (.fft n) (zeroImag n (effectOf (.config n) s))).complete, (effectOf (.analyze n) s).complete,
    exec_engine (.config n) hturn, ?_, ?_, exec_engine (.analyze n) hturn⟩
  · rw [← hzero, zeroImag_complete]
    exact exec_complete (.fft n) hturn
  · rw [effectOf_analyze]
    exact exec_complete (.mag n) hturn

/-- Settles O20: CONFIG writes no byte, the zeroing only IMAG's, FFT those of REAL and IMAG, MAG those of MAGB. -/
theorem analyzeFrame : Obligations.AnalyzeFrame := by
  intro n s hturn _ _
  exact ⟨_, exec_engine (.analyze n) hturn, completed_complete _, sameButData_complete _ s, analyzeEffect_size n s,
    analyzeEffect_draws n s, fun a hreal himag hmag => readByte_analyzeEffect_outside n s hreal himag hmag⟩

end Sys2Proof.Machine
end

section
/-! PROOF. The exceptions (`60_exceptions.md`): the codes (R181), the rejections of a CMD write (R185), the bus errors
(R184), that nothing stops the block (R180), and what becomes of a pending command (R187, R197). -/

namespace Sys2Proof.Machine

/-! ## The rejections of a CMD write -/

theorem operandError_eq_lengthError {s : State} {i : Instr} (h : checksLength i = true) :
    s.operandError i = s.lengthError i.len := by
  cases i with
  | nop | config | analyze => cases h
  | bitrev | bfly | fft | mag => rfl

theorem operandError_eq_sizeError {s : State} {i : Instr} (hnop : i ≠ .nop) (h : checksLength i = false) :
    s.operandError i = s.sizeError i.len := by
  cases i with
  | nop => exact absurd rfl hnop
  | config | analyze => rfl
  | bitrev | bfly | fft | mag => cases h

/-- INVALID_SIZE comes before the other checks of LEN. -/
theorem operandError_of_invalid {s : State} {i : Instr} (hnop : i ≠ .nop) (h : validSize s.cfg i.len = false) :
    s.operandError i = some .invalidSize := by
  cases hc : checksLength i with
  | false => simp [operandError_eq_sizeError hnop hc, State.sizeError, h]
  | true => simp [operandError_eq_lengthError hc, State.lengthError, h]

/-- The checks of LEN against SIZE.N: NOT_CONFIGURED comes before LENGTH_MISMATCH. -/
theorem operandError_of_valid {s : State} {i : Instr} (h : validSize s.cfg i.len = true)
    (hc : checksLength i = true) :
    s.operandError i =
      if s.size.n = 0 then some .notConfigured else if i.len ≠ s.size.n then some .lengthMismatch else none := by
  simp [operandError_eq_lengthError hc, State.lengthError, h]

/-- A command that fails a check of its operand is rejected with the check's code. -/
theorem issue_eq_reject {s : State} {i : Instr} {e : ErrCode} (hidle : s.status.busy = false)
    (he : s.operandError i = some e) : s.issue i = s.reject e := by
  simp [State.issue, hidle, he]

/-- A CMD write to a busy block is rejected, whatever its word. -/
theorem step_of_presents_busy {s : State} {w : Word} (h : s.presents w) (hbusy : s.status.busy = true) :
    step s = .next ({ s.answered writeOkay with turn := .host }.reject .busy) := by
  cases hd : decode w with
  | ok i => exact (step_of_presents_legal h hd).trans (congrArg _ (if_pos hbusy))
  | error e => exact (step_of_presents_illegal h hd).trans (congrArg _ (if_pos hbusy))

/-- A CMD write of a legal word to an idle block is rejected with the code of the check that fails. -/
theorem step_of_presents_failing {s : State} {w : Word} {i : Instr} {e : ErrCode} (h : s.presents w)
    (hidle : s.status.busy = false) (hd : decode w = .ok i) (he : s.operandError i = some e) :
    step s = .next ({ s.answered writeOkay with turn := .host }.reject e) := by
  have he' : State.operandError { s.answered writeOkay with turn := .host } i = some e := by
    rw [← he]
    cases i <;> rfl
  rw [step_of_presents_legal h hd, issue_eq_reject (s := { s.answered writeOkay with turn := .host }) hidle he']

/-- Settles O10: BUSY is looked at before the word, the word before its operand, and the operand's checks in their
order. -/
theorem rejectionReportsTheFirstFailedCheck : Obligations.RejectionReportsTheFirstFailedCheck := by
  intro s w h
  refine ⟨step_of_presents_busy h, ?_, fun i hidle hd hnop => ⟨fun hvalid => ?_, fun hvalid hc hn => ?_,
    fun hvalid hc hn hlen => ?_⟩⟩
  · rintro hidle ⟨e, he⟩
    have hfree : ¬ s.status.busy = true := by simp [hidle]
    exact (step_of_presents_illegal h he).trans (congrArg _ (if_neg hfree))
  · exact step_of_presents_failing h hidle hd (operandError_of_invalid hnop hvalid)
  · exact step_of_presents_failing h hidle hd (by rw [operandError_of_valid hvalid hc, if_pos hn])
  · exact step_of_presents_failing h hidle hd (by rw [operandError_of_valid hvalid hc, if_neg hn, if_pos hlen])

/-- Settles O11: code by code. -/
theorem errorCodesHaveTheirNumbers : Obligations.ErrorCodesHaveTheirNumbers :=
  ⟨rfl, rfl, rfl, rfl, rfl, rfl, fun e => by cases e <;> decide⟩

/-! ## Bus errors -/

/-- The targets whose read is a bus error (`20_memory.md` R67). -/
def State.refusesRead (s : State) : Target → Bool
  | .unmapped => true
  | .buffer => s.status.busy
  | .id | .status | .ctrl | .size | .cmd | .romc _ | .roms _ => false

/-- The targets a write to which is a bus error (`20_memory.md` R68). -/
def State.refusesWrite (s : State) : Target → Bool
  | .id | .size | .romc _ | .roms _ | .unmapped => true
  | .buffer => s.status.busy
  | .status | .ctrl | .cmd => false

theorem hostRead_eq_readError {u : State} {off width : Nat}
    (h : legalAccess off width = true → u.refusesRead (target u.cfg off) = true) :
    u.hostRead off width = u.respond readError := by
  unfold State.hostRead
  split
  next hlegal =>
    have hrefused := h hlegal
    cases ht : target u.cfg off with
    | unmapped => rfl
    | buffer =>
      rw [ht] at hrefused
      exact if_pos hrefused
    | id | status | ctrl | size | cmd | romc | roms => simp [ht, State.refusesRead] at hrefused
  next => rfl

theorem hostWrite_eq_writeError {u : State} {off width : Nat} (v : Word)
    (h : legalAccess off width = true → u.refusesWrite (target u.cfg off) = true) :
    u.hostWrite off width v = (u.respond writeError, none) := by
  unfold State.hostWrite
  split
  next hlegal =>
    have hrefused := h hlegal
    cases ht : target u.cfg off with
    | id | size | romc | roms | unmapped => rfl
    | buffer =>
      rw [ht] at hrefused
      exact if_pos hrefused
    | status | ctrl | cmd => simp [ht, State.refusesWrite] at hrefused
  next => rfl

/-- The one legal width, at an aligned offset (`20_memory.md` R65). -/
theorem legalAccess_eq_true {off width : Nat} : legalAccess off width = true ↔ width = 8 ∧ off % 8 = 0 := by
  simp [legalAccess]

/-- Nothing is mapped in window `k` past its `n` elements (R62). -/
theorem target_past_window {c : Config} {off : Nat} (k n : Nat)
    (hcount : (k = 1 ∨ k = 2) ∧ n = c.nMax ∨ (k = 3 ∨ k = 4 ∨ k = 5) ∧ n = c.nMax / 2)
    (hlow : k * 0x100000 + 8 * n ≤ off) (hhigh : off < (k + 1) * 0x100000) : target c off = .unmapped := by
  have hwindow : off / windowSpan = k := by unfold windowSpan; omega
  have hpast : ¬ off % windowSpan / 8 < n := by unfold windowSpan; omega
  rcases hcount with ⟨rfl | rfl, rfl⟩ | ⟨rfl | rfl | rfl, rfl⟩ <;> simp only [target, hwindow, if_neg hpast]

/-- Nothing is mapped at the offsets of R184. -/
theorem target_of_unmappedOffset {c : Config} {off : Nat} (h : unmappedOffset c off) : target c off = .unmapped := by
  rcases h with ⟨hlow, hhigh⟩ | ⟨hlow, hhigh⟩ | ⟨hlow, hhigh⟩ | ⟨hlow, hhigh⟩ | ⟨hlow, hhigh⟩ | ⟨hlow, hhigh⟩ | hlow
  · rw [target_eq_registerAt c hhigh, registerAt]
    iterate 5 rw [if_neg (by omega)]
  · exact target_past_window 1 c.nMax (by simp) hlow hhigh
  · exact target_past_window 2 c.nMax (by simp) hlow hhigh
  · exact target_past_window 3 (c.nMax / 2) (by simp) hlow hhigh
  · exact target_past_window 4 (c.nMax / 2) (by simp) hlow hhigh
  · exact target_past_window 5 (c.nMax / 2) (by simp) hlow hhigh
  · obtain ⟨k, hwindow⟩ : ∃ k, off / windowSpan = k + 6 := ⟨off / windowSpan - 6, by unfold windowSpan; omega⟩
    simp only [target, hwindow]

/-- A ROM window holds entries and, past them, nothing, so every write to it is refused. -/
theorem refusesWrite_of_rom {s : State} {off : Nat} (hlow : 0x400000 ≤ off) (hhigh : off < 0x600000) :
    s.refusesWrite (target s.cfg off) = true := by
  have hwindow : off / windowSpan = 4 ∨ off / windowSpan = 5 := by unfold windowSpan; omega
  rcases hwindow with hw | hw <;> simp only [target, hw] <;> split <;> rfl

theorem refusesRead_of_busError {s : State} {off width : Nat} (hlog : s.cfg.log2nMax ≤ 17)
    (h : width ≠ 8 ∨ off % 8 ≠ 0 ∨ unmappedOffset s.cfg off ∨ (s.status.busy = true ∧ bufferOffset s.cfg off))
    (hlegal : legalAccess off width = true) : s.refusesRead (target s.cfg off) = true := by
  obtain ⟨hwidth, haligned⟩ := legalAccess_eq_true.1 hlegal
  rcases h with h | h | h | ⟨hbusy, h⟩
  · exact absurd hwidth h
  · exact absurd haligned h
  · rw [target_of_unmappedOffset h]
    rfl
  · rw [target_of_bufferOffset hlog h]
    exact hbusy

theorem refusesWrite_of_busError {s : State} {off width : Nat} (hlog : s.cfg.log2nMax ≤ 17)
    (h : width ≠ 8 ∨ off % 8 ≠ 0 ∨ unmappedOffset s.cfg off ∨ off = 0x00 ∨ off = 0x18 ∨
      (0x400000 ≤ off ∧ off < 0x600000) ∨ (s.status.busy = true ∧ bufferOffset s.cfg off))
    (hlegal : legalAccess off width = true) : s.refusesWrite (target s.cfg off) = true := by
  obtain ⟨hwidth, haligned⟩ := legalAccess_eq_true.1 hlegal
  rcases h with h | h | h | rfl | rfl | ⟨hlow, hhigh⟩ | ⟨hbusy, h⟩
  · exact absurd hwidth h
  · exact absurd haligned h
  · rw [target_of_unmappedOffset h]
    rfl
  · rfl
  · rfl
  · exact refusesWrite_of_rom hlow hhigh
  · rw [target_of_bufferOffset hlog h]
    exact hbusy

/-- Settles O41: each cause is an access that is not legal or whose target refuses it, and the answer is all it leaves. -/
theorem busErrorsChangeNothing : Obligations.BusErrorsChangeNothing := by
  intro s off width hlog
  constructor
  · intro h hcause
    refine step_of_serves h (Prod.ext ?_ rfl)
    exact hostRead_eq_readError (refusesRead_of_busError hlog hcause)
  · intro v h hcause
    exact step_of_serves h (hostWrite_eq_writeError v (refusesWrite_of_busError hlog hcause))

/-! ## Nothing stops the block -/

theorem step_next (s : State) : ∃ t, step s = .next t := by
  cases hf : s.front with
  | mk u oi =>
    cases oi with
    | none => exact ⟨u, step_of_front_none hf⟩
    | some i =>
      rw [step_of_front_some hf]
      exact exec_next i u

/-- Settles O53: the step's only outcome besides its own next state is that of `exec`. -/
theorem theMachineNeverStops : Obligations.TheMachineNeverStops := ⟨step_next, exec_next⟩

/-! ## A pending command -/

/-- A transaction served by a busy block neither cancels the command nor touches the buffers or SIZE. -/
theorem ServeOutcome.busy_frame {u t : State} {r : Request} (h : ServeOutcome u r t) (hbusy : u.status.busy = true) :
    t.pending = u.pending ∧ t.status.busy = true ∧ t.mem = u.mem ∧ t.size = u.size := by
  cases h with
  | stored _ _ _ hidle | accepted _ _ _ hidle => exact Bool.noConfusion (hidle.symm.trans hbusy)
  | answered | statusWritten | ctrlWritten | rejected => exact ⟨rfl, hbusy, rfl, rfl⟩

/-- The completion of CONFIG and ANALYZE writes SIZE, that of the other commands does not (`10_state.md` R27). -/
theorem effectOf_size_eq_ite (i : Instr) (s : State) :
    (effectOf i s).size = if i = .config i.len ∨ i = .analyze i.len then
      { n := i.len, log2n := Nat.log2 i.len } else s.size := by
  rw [effectOf_size]
  cases i <;> simp [Instr.len]

/-- Settles O57: of the outcomes of a step the idle one and a served transaction keep the command. -/
theorem onlyCompletionOrResetEndsACommand : Obligations.OnlyCompletionOrResetEndsACommand := by
  intro s t i hbusy hp h
  cases step_outcome h with
  | reset level reqs resps hr => exact .inr (.inr ⟨hr, rfl⟩)
  | idle => exact .inl ⟨hp, hbusy, rfl, rfl⟩
  | completed j hr hj =>
    cases hp.symm.trans hj
    exact .inr (.inl ⟨completed_complete _, effectOf_size_eq_ite i _⟩)
  | served r rest d hr hq hs =>
    obtain ⟨hpending, hstill, hmem, hsize⟩ := hs.busy_frame hbusy
    exact .inl ⟨hpending.trans hp, hstill, hmem, hsize⟩

/-- Where the engine moves, the command completes and what waits goes on waiting. -/
theorem completes_of_engineMoves {s : State} {i : Instr} (hr : s.rst = false) (hp : s.pending = some i)
    (h : s.engineMoves) : ∃ t, step s = .next t ∧ Completed t ∧ t.requests = s.requests := by
  obtain ⟨t, ht⟩ := step_next s
  exact ⟨t, ht, step_of_engineMoves hr hp h ht⟩

/-- Where the host moves, the command stays pending and the transaction is answered. -/
theorem serves_of_front_busy {s u : State} {r : Request} (hf : s.front = u.serve r) (hbusy : u.status.busy = true) :
    ∃ t, step s = .next t ∧ t.pending = u.pending ∧ t.requests = u.requests ∧
      t.responses.length = u.responses.length + 1 ∧ t.delay = u.delay := by
  obtain ⟨t, ht⟩ := step_next s
  obtain ⟨-, hp, -, -, hreqs, hdelay, hresps⟩ := step_of_serve_busy hf hbusy ht
  exact ⟨t, ht, hp, hreqs, hresps, hdelay⟩

/-- Where the schedule names nobody and the command's delay is not used up, the host goes first. -/
theorem front_of_delay {s : State} {r : Request} {i : Instr} {d : Nat} (hr : s.rst = false) (hsched : s.schedule = [])
    (hq : s.requests.head? = some r) (hp : s.pending = some i) (hd : s.delay = d + 1) :
    s.front = { s with requests := s.requests.tail, delay := d }.serve r := by
  obtain ⟨rest, hq⟩ := List.head?_eq_some_iff.1 hq
  have hunscheduled : s.unscheduledStep = { s with delay := d }.hostStep := by
    simp [State.unscheduledStep, hq, hp, hd]
  rw [front_nil hsched, hunscheduled, hostStep_serve (s := { s with delay := d }) hr hq, hq, List.tail_cons]

/-- Settles O59: the first and the third schedule let the engine move, the other two the host. -/
theorem eitherOrderCanHappen : Obligations.EitherOrderCanHappen := by
  intro s r i hr hbusy hp hq
  refine ⟨?_, ?_, ?_, fun d => ?_⟩
  · exact completes_of_engineMoves (s := { s with schedule := [.engine] }) hr hp (.inl rfl)
  · have hserves : State.serves { s with schedule := [.host] } r := ⟨hr, .inl rfl, hq⟩
    obtain ⟨t, ht, hpending, hreqs, hresps, -⟩ := serves_of_front_busy (front_of_serves hserves) hbusy
    exact ⟨t, ht, hpending.trans hp, hreqs, hresps⟩
  · exact completes_of_engineMoves (s := { s with schedule := [], delay := 0 }) hr hp (.inr ⟨rfl, .inr rfl⟩)
  · have hfront := front_of_delay (s := { s with schedule := [], delay := d + 1 }) hr rfl hq hp rfl
    obtain ⟨t, ht, hpending, hreqs, hresps, hdelay⟩ := serves_of_front_busy hfront hbusy
    exact ⟨t, ht, hpending.trans hp, hreqs, hresps, hdelay⟩

end Sys2Proof.Machine
end

section
/-! PROOF. Reset and hazards (`70_reset_and_hazards.md`): reset by the input rst (R210), operands that hold no value
(R218), and that an accepted command completes (R222). -/

namespace Sys2Proof.Machine

/-! ## The reset input -/

theorem driveRst_of_asserted {s : State} {level : Bool} (h : level = true ∨ s.rst = true) :
    s.driveRst level = { s.doReset with rst := level } :=
  if_pos (Bool.or_eq_true_iff.2 h)

/-- Settles O49: the schedule's entry drives rst, and with rst asserted before or after it the state is reset. -/
theorem resetInputTakesTheResetState : Obligations.ResetInputTakesTheResetState := by
  intro s level hhead hasserted
  obtain ⟨rest, hsched⟩ := List.head?_eq_some_iff.1 hhead
  rw [step_of_front_none (front_rst hsched), driveRst_of_asserted (s := { s with schedule := rest }) hasserted, hsched]
  rfl

theorem hostStep_of_stall {s : State} {r : Request} {rest : List Request} (hr : s.rst = true)
    (hq : s.requests = r :: rest) (hstall : s.cfg.resetBus = .stall) : s.hostStep = (s.doReset, none) := by
  simp [State.hostStep, hr, hq, hstall]

theorem hostStep_of_resetError {s : State} {r : Request} {rest : List Request} (hr : s.rst = true)
    (hq : s.requests = r :: rest) (herror : s.cfg.resetBus = .error) :
    s.hostStep = ({ s.doReset.respond (busError r) with requests := rest }, none) := by
  simp [State.hostStep, hr, hq, herror]

theorem busError_status (r : Request) : (busError r).status = .error := by
  cases r <;> rfl

/-- Settles O50: with either value of RESET_BUS_RESPONSE the host's step leaves the reset state; they differ in what
becomes of the transaction. -/
theorem noTransactionDuringReset : Obligations.NoTransactionDuringReset := by
  intro s r hr hhead hq
  obtain ⟨ticks, hsched⟩ := List.head?_eq_some_iff.1 hhead
  obtain ⟨rest, hreqs⟩ := List.head?_eq_some_iff.1 hq
  cases hbus : s.cfg.resetBus with
  | stall =>
    have hfront := (front_host hsched).trans (hostStep_of_stall (s := { s with schedule := ticks }) hr hreqs hbus)
    exact ⟨_, step_of_front_none hfront, rfl, rfl, rfl, rfl, rfl, hr, fun _ => ⟨rfl, rfl⟩, nofun⟩
  | error =>
    have hfront := (front_host hsched).trans (hostStep_of_resetError (s := { s with schedule := ticks }) hr hreqs hbus)
    exact ⟨_, step_of_front_none hfront, rfl, rfl, rfl, rfl, rfl, hr, nofun,
      fun _ => ⟨(congrArg List.tail hreqs).symm, busError r, busError_status r, rfl⟩⟩

/-! ## Operands that hold no value -/

theorem lift2_eq_none_iff {f : Binary64 → Binary64 → Binary64} {x y : Element} :
    lift2 f x y = none ↔ x = none ∨ y = none := by
  refine ⟨fun h => ?_, lift2_eq_none⟩
  cases x with
  | none => exact .inl rfl
  | some a =>
    cases y with
    | none => exact .inr rfl
    | some b => cases h

/-- Settles O25: the sum and the difference of the four products of b and the twiddle name all four of their parts. -/
theorem butterflyKeepsMissingValuesMissing : Obligations.ButterflyKeepsMissingValuesMissing := by
  intro w a b upperMissing
  have hreal : lift2 fadd (lift2 fmul b.1 w.1) (lift2 fmul b.2 w.2) = none ↔ upperMissing := by
    simp only [lift2_eq_none_iff, upperMissing]
    tauto
  have himag : lift2 fsub (lift2 fmul b.2 w.1) (lift2 fmul b.1 w.2) = none ↔ upperMissing := by
    simp only [lift2_eq_none_iff, upperMissing]
    tauto
  exact ⟨lift2_eq_none_iff.trans (or_congr_right hreal), lift2_eq_none_iff.trans (or_congr_right himag),
    lift2_eq_none_iff.trans (or_congr_right hreal), lift2_eq_none_iff.trans (or_congr_right himag)⟩

/-! ## A pending command completes

Every step of a block with a command pending either completes it or uses up an entry of the schedule, or, where there is
none, a waiting transaction and one unit of the command's delay. The three clauses of R222 are about runs that are fed,
the first with nothing. -/

/-- A command is pending, rst is not asserted, and the schedule does not drive it. -/
structure State.Uninterrupted (s : State) (i : Instr) : Prop where
  busy : s.status.busy = true
  pending : s.pending = some i
  rst : s.rst = false
  schedule : ∀ level, Tick.rst level ∉ s.schedule

/-- A step has used up an entry of the schedule, or a waiting transaction and one unit of the command's delay. -/
structure UsesUp (s t : State) : Prop where
  requests : t.schedule.length + t.requests.length < s.schedule.length + s.requests.length
  delay : t.schedule.length + t.delay < s.schedule.length + s.delay

theorem hostStep_idle {s : State} (hr : s.rst = false) (hq : s.requests = []) : s.hostStep = (s, none) := by
  simp [State.hostStep, hr, hq]

/-- A transaction that finds the command pending leaves it pending, and what waits outside as it found it. -/
theorem State.Uninterrupted.serve {s u t : State} {i : Instr} {r : Request} (h : u.Uninterrupted i)
    (hf : s.front = u.serve r) (ht : step s = .next t) :
    t.Uninterrupted i ∧ t.schedule = u.schedule ∧ t.requests = u.requests ∧ t.delay = u.delay := by
  obtain ⟨hbusy, hp, hr, hsched, hreqs, hdelay, -⟩ := step_of_serve_busy hf h.busy ht
  exact ⟨⟨hbusy, hp.trans h.pending, hr.trans h.rst, hsched ▸ h.schedule⟩, hsched, hreqs, hdelay⟩

/-- The host's entry of the schedule is used up, and with it a transaction if one waits. -/
theorem State.Uninterrupted.host_step {s t : State} {i : Instr} {ticks : List Tick} (h : s.Uninterrupted i)
    (hsched : s.schedule = .host :: ticks) (ht : step s = .next t) : t.Uninterrupted i ∧ UsesUp s t := by
  have hquiet : ∀ level, Tick.rst level ∉ ticks := fun level hmem =>
    h.schedule level (hsched ▸ List.mem_cons_of_mem _ hmem)
  have hrest : ∀ reqs, State.Uninterrupted { s with schedule := ticks, requests := reqs } i := fun _ =>
    ⟨h.busy, h.pending, h.rst, hquiet⟩
  cases hq : s.requests with
  | nil =>
    have hfront := (front_host hsched).trans (hostStep_idle (s := { s with schedule := ticks }) h.rst hq)
    rw [step_of_front_none hfront, Host.Outcome.next.injEq] at ht
    subst ht
    exact ⟨hrest s.requests, by simp [hsched], by simp [hsched]⟩
  | cons r rest =>
    have hfront := (front_host hsched).trans (hostStep_serve (s := { s with schedule := ticks }) h.rst hq)
    obtain ⟨hwaits, hticks, hreqs, hdelay⟩ := (hrest rest).serve hfront ht
    exact ⟨hwaits, by simp [hticks, hreqs, hsched, hq]; omega, by simp [hticks, hdelay, hsched]⟩

/-- Where the schedule names nobody, a transaction goes first as long as the delay is not used up. -/
theorem State.Uninterrupted.delay_step {s t : State} {i : Instr} (h : s.Uninterrupted i) (hsched : s.schedule = [])
    (hreqs : s.requests ≠ []) (hdelay : s.delay ≠ 0) (ht : step s = .next t) : t.Uninterrupted i ∧ UsesUp s t := by
  obtain ⟨r, rest, hq⟩ := List.exists_cons_of_ne_nil hreqs
  obtain ⟨d, hd⟩ := Nat.exists_eq_succ_of_ne_zero hdelay
  have hfront := front_of_delay h.rst hsched (List.head?_eq_some_iff.2 ⟨rest, hq⟩) h.pending hd
  have hrest : State.Uninterrupted { s with requests := s.requests.tail, delay := d } i :=
    ⟨h.busy, h.pending, h.rst, h.schedule⟩
  obtain ⟨hwaits, hticks, hreqs', hdelay'⟩ := hrest.serve hfront ht
  exact ⟨hwaits, by simp [hticks, hreqs', hq], by simp [hticks, hdelay', hd]⟩

/-- A step completes the pending command or uses something up. -/
theorem State.Uninterrupted.completed_or_usesUp {s t : State} {i : Instr} (h : s.Uninterrupted i)
    (ht : step s = .next t) : Completed t ∨ (t.Uninterrupted i ∧ UsesUp s t) := by
  by_cases hmoves : s.engineMoves
  · exact .inl (step_of_engineMoves h.rst h.pending hmoves ht).1
  · right
    cases hsched : s.schedule with
    | nil =>
      exact h.delay_step hsched (fun hreqs => hmoves (.inr ⟨hsched, .inl hreqs⟩))
        (fun hdelay => hmoves (.inr ⟨hsched, .inr hdelay⟩)) ht
    | cons tick ticks =>
      cases tick with
      | host => exact h.host_step hsched ht
      | engine => exact absurd (.inl (by simp [hsched])) hmoves
      | rst level => exact absurd (by simp [hsched]) (h.schedule level)

/-- What arrives leaves the command uninterrupted as long as it does not drive rst. -/
theorem State.Uninterrupted.arrive {s : State} {i : Instr} {ticks : List Tick} (h : s.Uninterrupted i)
    (reqs : List Request) (hquiet : ∀ level, Tick.rst level ∉ (s.arrive reqs ticks).schedule) :
    (s.arrive reqs ticks).Uninterrupted i :=
  ⟨h.busy, h.pending, h.rst, hquiet⟩

theorem arrive_no_ticks (s : State) (reqs : List Request) : (s.arrive reqs []).schedule = s.schedule :=
  List.append_nil s.schedule

theorem arrive_nothing (s : State) : s.arrive [] [] = s := by
  simp [State.arrive]

/-- Along a run, what each step keeps unless it completes a command holds until one completes. -/
theorem completed_or_of_step {run : Nat → State} {P : Nat → Prop} (h0 : P 0)
    (hstep : ∀ k, P k → Completed (run (k + 1)) ∨ P (k + 1)) (k : Nat) : (∃ j ≤ k, Completed (run j)) ∨ P k := by
  induction k with
  | zero => exact .inr h0
  | succ k ih =>
    rcases ih with ⟨j, hj, hdone⟩ | hP
    · exact .inl ⟨j, Nat.le_succ_of_le hj, hdone⟩
    · exact (hstep k hP).imp_left fun hdone => ⟨k + 1, le_rfl, hdone⟩

/-- A run in which every step that does not complete the command lowers a measure completes it in time. -/
theorem exists_completed_of_decreasing {run : Nat → State} {i : Instr} (μ : State → Nat)
    (h0 : (run 0).Uninterrupted i)
    (hstep : ∀ k, (run k).Uninterrupted i →
      Completed (run (k + 1)) ∨ ((run (k + 1)).Uninterrupted i ∧ μ (run (k + 1)) < μ (run k))) :
    ∃ k ≤ μ (run 0) + 1, Completed (run k) := by
  have hwaits := completed_or_of_step (run := run) (P := fun k => (run k).Uninterrupted i ∧ μ (run k) + k ≤ μ (run 0))
    ⟨h0, le_rfl⟩ (fun k ⟨hk, hμ⟩ => (hstep k hk).imp_right fun ⟨hnext, hlt⟩ => ⟨hnext, by omega⟩) (μ (run 0) + 1)
  rcases hwaits with hdone | ⟨-, hμ⟩
  · exact hdone
  · omega

theorem core_run_succ {s t : State} (h : step s = .next t) (k : Nat) : core.run (k + 1) s = core.run k t := by
  have hcore : core.step s = .next t := h
  simp only [Host.Core.run, hcore]

/-- The run of a machine left alone: nothing arrives, and `Core.run` answers its states. -/
theorem exists_run_alone (s : State) :
    ∃ run : Nat → State, run 0 = s ∧ FedRun (fun _ => []) (fun _ => []) run ∧ ∀ k, core.run k s = .next (run k) := by
  choose next hnext using step_next
  refine ⟨fun k => next^[k] s, rfl, fun k => ?_, fun k => ?_⟩
  · rw [arrive_nothing, hnext]
    exact congrArg _ (Function.iterate_succ_apply' next k s).symm
  · induction k generalizing s with
    | zero => rfl
    | succ k ih => exact (core_run_succ (hnext s) k).trans (ih (next s))

/-- Left alone, a machine completes its command as soon as the schedule and the waiting transactions are used up. -/
theorem FedRun.completes_alone {run : Nat → State} {i : Instr} (hrun : FedRun (fun _ => []) (fun _ => []) run)
    (h : (run 0).Uninterrupted i) :
    ∃ k ≤ (run 0).schedule.length + (run 0).requests.length + 1, Completed (run k) := by
  refine exists_completed_of_decreasing (fun s => s.schedule.length + s.requests.length) h fun k hk => ?_
  have hstep := hrun k
  rw [arrive_nothing] at hstep
  exact (hk.completed_or_usesUp hstep).imp_right fun ⟨hnext, hused⟩ => ⟨hnext, hused.requests⟩

/-- Whatever transactions arrive, the command completes as soon as the schedule and its delay are used up. -/
theorem FedRun.completes_by_delay {requests : Nat → List Request} {run : Nat → State} {i : Instr}
    (hrun : FedRun requests (fun _ => []) run) (h : (run 0).Uninterrupted i) :
    ∃ k ≤ (run 0).schedule.length + (run 0).delay + 1, Completed (run k) := by
  refine exists_completed_of_decreasing (fun s => s.schedule.length + s.delay) h fun k hk => ?_
  have hsched := arrive_no_ticks (run k) (requests k)
  have hfed := hk.arrive (requests k) (hsched ▸ hk.schedule)
  refine (hfed.completed_or_usesUp (hrun k)).imp_right fun ⟨hnext, hused⟩ => ⟨hnext, ?_⟩
  have hlt := hused.delay
  rw [hsched] at hlt
  exact hlt

/-- Under the fairness assumption (R222) the command completes at the engine's first step at the latest. -/
theorem FairRun.completes {requests : Nat → List Request} {ticks : Nat → List Tick} {run : Nat → State} {i : Instr}
    (hfair : FairRun requests ticks run) (hrun : FedRun requests ticks run) (h : (run 0).Uninterrupted i)
    (hquiet : ∀ k level, Tick.rst level ∉ ((run k).arrive (requests k) (ticks k)).schedule) :
    ∃ k, Completed (run k) := by
  obtain ⟨j, -, hmoves⟩ := hfair 0
  have hwaits := completed_or_of_step (run := run) (P := fun k => (run k).Uninterrupted i) h
    (fun k hk => ((hk.arrive (requests k) (hquiet k)).completed_or_usesUp (hrun k)).imp_right And.left) j
  rcases hwaits with ⟨k, -, hdone⟩ | hj
  · exact ⟨k, hdone⟩
  · exact ⟨j + 1, (step_of_engineMoves (s := (run j).arrive (requests j) (ticks j)) hj.rst hj.pending hmoves
      (hrun j)).1⟩

/-- Settles O60: a step that does not complete the command lowers the bounds of the first two clauses, and the third
clause's run reaches a step of the engine. -/
theorem pendingCommandCompletes : Obligations.PendingCommandCompletes := by
  refine ⟨fun s i hbusy hp hr hquiet => ?_, fun requests run i hrun hbusy hp hr hquiet => ?_,
    fun requests ticks run i hrun hfair hbusy hp hr hquiet => ?_⟩
  · obtain ⟨run, rfl, hrun, hcore⟩ := exists_run_alone s
    obtain ⟨k, hk, hdone⟩ := hrun.completes_alone ⟨hbusy, hp, hr, hquiet⟩
    exact ⟨k, run k, hk, hcore k, hdone⟩
  · exact hrun.completes_by_delay ⟨hbusy, hp, hr, hquiet⟩
  · have hquiet0 : ∀ level, Tick.rst level ∉ (run 0).schedule := fun level hmem =>
      hquiet 0 level (List.mem_append_left _ hmem)
    exact hfair.completes hrun ⟨hbusy, hp, hr, hquiet0⟩ hquiet

end Sys2Proof.Machine
end
